-- ==== Sys2Proof/Word.lean ====
section
/-! DEFINITION. The widths of the machine's values (spec/00_scope.md R2, R7; spec/10_state.md R20). -/

namespace Sys2Proof

/-- A register, a timer or a memory cell: 8 bits (R21, R27, R30). -/
abbrev Byte := BitVec 8

/-- The index register, the program counter, a stack entry, the key mask or an instruction: 16 bits (R7, R23, R24, R26, R31). -/
abbrev Word := BitVec 16

/-- The field NNN, a 12-bit address (R7). -/
abbrev Addr12 := BitVec 12

/-- The fields X and Y, the index of a general register: 4 bits, so every index 0..15 can be named (R7, R21). -/
abbrev Reg := BitVec 4

/-- The field N, a 4-bit immediate (R7). -/
abbrev Nibble := BitVec 4

end Sys2Proof
end

