-- ==== Sys2Proof/Config.lean ====
section
/-! DEFINITION. The configuration record of spec/00_scope.md R6, fixed at construction (spec/10_state.md R32,
spec/70_reset_and_hazards.md R234), and the model's free values. -/

namespace Sys2Proof

/-- The OPEN parameters of R6. A state carries its record (`Machine.State.cfg`), and no step changes it, so a statement
about every state is a statement about every configuration (log 1). The constants of R6 (4096 bytes, 0x200, 16 registers,
64 by 32 cells, 80 font bytes) are written where they are used. -/
structure Config where
  /-- `STACK_DEPTH`, the call stack's capacity in entries (R6, R26). -/
  stackDepth : Nat
  /-- `IPF`, the instructions executed per tick (R6, R95). -/
  ipf : Nat
  /-- `FONT_BASE`, the memory address of glyph 0 (R6, R152). -/
  fontBase : Nat
  /-- `FONT_TABLE`, sixteen glyphs of five bytes (R6, R35). -/
  fontTable : Vector Byte 80
  /-- `Q_SHIFT_VX`, quirk "new-shift" (R6, R138, R140). -/
  qShiftVx : Bool
  /-- `Q_JUMP_VX`, quirk "new-offset-jump" (R6, R117). -/
  qJumpVx : Bool
  /-- `Q_INDEX_OVF`, quirk "index-overflow" (R6, R151). -/
  qIndexOvf : Bool
  /-- `Q_MEM_KEEP_I`, quirk "new-store/load" (R6, R154, R155). -/
  qMemKeepI : Bool
  deriving DecidableEq, Repr

/-- The glyphs suggested in R35, a row of the list per pair of glyphs. -/
def Config.suggestedGlyphs : List Byte :=
  [0xF0, 0x90, 0x90, 0x90, 0xF0,  0x20, 0x60, 0x20, 0x20, 0x70] ++
  [0xF0, 0x10, 0xF0, 0x80, 0xF0,  0xF0, 0x10, 0xF0, 0x10, 0xF0] ++
  [0x90, 0x90, 0xF0, 0x10, 0x10,  0xF0, 0x80, 0xF0, 0x10, 0xF0] ++
  [0xF0, 0x80, 0xF0, 0x90, 0xF0,  0xF0, 0x10, 0x20, 0x40, 0x40] ++
  [0xF0, 0x90, 0xF0, 0x90, 0xF0,  0xF0, 0x90, 0xF0, 0x10, 0xF0] ++
  [0xF0, 0x90, 0xF0, 0x90, 0x90,  0xE0, 0x90, 0xE0, 0x90, 0xE0] ++
  [0xF0, 0x80, 0x80, 0x80, 0xF0,  0xE0, 0x90, 0x90, 0x90, 0xE0] ++
  [0xF0, 0x80, 0xF0, 0x80, 0xF0,  0xF0, 0x80, 0xF0, 0x80, 0x80]

/-- DESIGN CHOICE (log 1, unsafe): the record `Machine.State.reset` is constructed with. Stack depth, font base and glyphs
are the values R6 and R35 suggest, the quirks are off, and the budget 10 is the model's own. Every other record is reached
through `Machine.State.construct`. -/
def Config.sample : Config where
  stackDepth := 16
  ipf := 10
  fontBase := 0x050
  fontTable := ⟨⟨Config.suggestedGlyphs⟩, by decide⟩
  qShiftVx := false
  qJumpVx := false
  qIndexOvf := false
  qMemKeepI := false

/-- FREE VALUE (log 2): the byte the n-th execution of RND draws, under no law (R100, R141). -/
opaque Config.freeRandom : Nat → Byte

/-- FREE VALUE (log 3): the key mask the host passes to the n-th tick, where the state's own queue of masks is empty
(R38, R96, R210). -/
opaque Config.freeKeyMask : Nat → Word

end Sys2Proof
end

