-- ==== Sys2Proof/Syntax.lean ====
section
/-! DEFINITION. The 34 instructions of spec/30_encoding.md R74, one constructor per row of spec/opcode_table.json,
in the table's order. Operands are always in the order X, Y, immediate (R81). -/

namespace Sys2Proof

/-- The instruction set (R2, R74). A word that matches no row is UNKNOWN (R76) and is no constructor: the decoder rejects it. -/
inductive Instr where
  /-- 00E0, clear-screen (R170). -/
  | cls
  /-- 00EE, return (R110). -/
  | ret
  /-- 1NNN, jump NNN (R111). -/
  | jp (nnn : Addr12)
  /-- 2NNN, call NNN (R112). -/
  | call (nnn : Addr12)
  /-- 3XNN, skip-if-equal (R113). -/
  | skeq (x : Reg) (nn : Byte)
  /-- 4XNN, skip-if-not-equal (R114). -/
  | skne (x : Reg) (nn : Byte)
  /-- 5XY0, skip-if-reg-equal (R115). -/
  | skreq (x y : Reg)
  /-- 6XNN, set (R130). -/
  | set (x : Reg) (nn : Byte)
  /-- 7XNN, add immediate (R131). -/
  | addi (x : Reg) (nn : Byte)
  /-- 8XY0, copy (R132). -/
  | mov (x y : Reg)
  /-- 8XY1 (R133). -/
  | or (x y : Reg)
  /-- 8XY2 (R134). -/
  | and (x y : Reg)
  /-- 8XY3 (R135). -/
  | xor (x y : Reg)
  /-- 8XY4, add with carry out (R136). -/
  | add (x y : Reg)
  /-- 8XY5, subtract X − Y with borrow out (R137). -/
  | sub (x y : Reg)
  /-- 8XY6, shift right (R138). -/
  | shr (x y : Reg)
  /-- 8XY7, subtract Y − X with borrow out (R139). -/
  | rsub (x y : Reg)
  /-- 8XYE, shift left (R140). -/
  | shl (x y : Reg)
  /-- 9XY0, skip-if-reg-not-equal (R116). -/
  | skrne (x y : Reg)
  /-- ANNN, set-index (R150). -/
  | seti (nnn : Addr12)
  /-- BNNN, offset-jump (R117). -/
  | jpoff (nnn : Addr12)
  /-- CXNN, random (R141). -/
  | rnd (x : Reg) (nn : Byte)
  /-- DXYN, draw (R171). -/
  | draw (x y : Reg) (n : Nibble)
  /-- EX9E, skip-if-key-pressed (R180). -/
  | skp (x : Reg)
  /-- EXA1, skip-if-key-not-pressed (R181). -/
  | sknp (x : Reg)
  /-- FX07, get-delay-timer (R182). -/
  | getdt (x : Reg)
  /-- FX0A, wait-for-key (R183). -/
  | waitk (x : Reg)
  /-- FX15, set-delay-timer (R184). -/
  | setdt (x : Reg)
  /-- FX18, set-sound-timer (R185). -/
  | setst (x : Reg)
  /-- FX1E, add-to-index (R151). -/
  | addidx (x : Reg)
  /-- FX29, load-font-address (R152). -/
  | font (x : Reg)
  /-- FX33, bcd-convert (R153). -/
  | bcd (x : Reg)
  /-- FX55, store-registers (R154). -/
  | store (x : Reg)
  /-- FX65, load-registers (R155). -/
  | load (x : Reg)
  deriving DecidableEq, Repr

end Sys2Proof
end

