-- ==== Sys2Proof/WellFormed.lean ====
section
/-! DEFINITION. What is well formed: an instruction whose operands fit their fields (spec/30_encoding.md R73, R80),
and a configuration record within the ranges of spec/00_scope.md R6. -/

namespace Sys2Proof

/-- R80: an operand "must fit its field (nnn <= 0xFFF, nn <= 0xFF, n <= 0xF)", and R21: a register index is 0..15. The
operand types of `Instr` hold exactly these ranges, so no term of `Instr` fails the check (`Laws.wellFormed_instr`) and no
statement needs it as a premise. -/
def Instr.wellFormed : Instr → Bool
  | .cls | .ret => true
  | .jp nnn | .call nnn | .seti nnn | .jpoff nnn => nnn.toNat ≤ 0xFFF
  | .skeq x nn | .skne x nn | .set x nn | .addi x nn | .rnd x nn => x.toNat ≤ 15 && nn.toNat ≤ 0xFF
  | .skreq x y | .skrne x y | .mov x y | .or x y | .and x y | .xor x y | .add x y | .sub x y | .shr x y | .rsub x y
  | .shl x y => x.toNat ≤ 15 && y.toNat ≤ 15
  | .draw x y n => x.toNat ≤ 15 && y.toNat ≤ 15 && n.toNat ≤ 0xF
  | .skp x | .sknp x | .getdt x | .waitk x | .setdt x | .setst x | .addidx x | .font x | .bcd x | .store x
  | .load x => x.toNat ≤ 15

/-- The ranges of R6: `STACK_DEPTH >= 16`, `IPF >= 1`, `FONT_BASE <= 0x1B0`. (That the font table has 80 bytes is its type.) -/
abbrev Config.WellFormed (c : Config) : Prop :=
  16 ≤ c.stackDepth ∧ 1 ≤ c.ipf ∧ c.fontBase ≤ 0x1B0

end Sys2Proof
end

