-- ==== Sys2Proof/Decode.lean ====
section
/-! DEFINITION. Decoding and encoding (spec/30_encoding.md R70 to R78). -/

namespace Sys2Proof

/-- Why bytes are no instruction. -/
inductive Reject where
  /-- Fewer than two bytes are left, and every instruction is exactly two bytes (R70). -/
  | tooShort
  /-- The word matches no row of the opcode map (R76, R77): executed, it is a no-op (R94). -/
  | unknown (w : Word)
  deriving DecidableEq, Repr

/-! The fields of R71. -/

/-- `OP = w[15:12]`. -/
def fieldOP (w : Word) : Nibble := w.extractLsb' 12 4
/-- `X = w[11:8]`. -/
def fieldX (w : Word) : Reg := w.extractLsb' 8 4
/-- `Y = w[7:4]`. -/
def fieldY (w : Word) : Reg := w.extractLsb' 4 4
/-- `N = w[3:0]`. -/
def fieldN (w : Word) : Nibble := w.extractLsb' 0 4
/-- `NN = w[7:0]`. -/
def fieldNN (w : Word) : Byte := w.extractLsb' 0 8
/-- `NNN = w[11:0]`. -/
def fieldNNN (w : Word) : Addr12 := w.extractLsb' 0 12

/-- Family 0 (R74): only 00E0 and 00EE are instructions, every other word is UNKNOWN (R76, R77). -/
def decodeFamily0 (w : Word) : Except Reject Instr :=
  if w = 0x00E0 then .ok .cls else if w = 0x00EE then .ok .ret else .error (.unknown w)

/-- Family 8 (R74): the sub-opcode is N. -/
def decodeFamily8 (w : Word) : Except Reject Instr :=
  match (fieldN w).toNat with
  | 0x0 => .ok (.mov (fieldX w) (fieldY w))
  | 0x1 => .ok (.or (fieldX w) (fieldY w))
  | 0x2 => .ok (.and (fieldX w) (fieldY w))
  | 0x3 => .ok (.xor (fieldX w) (fieldY w))
  | 0x4 => .ok (.add (fieldX w) (fieldY w))
  | 0x5 => .ok (.sub (fieldX w) (fieldY w))
  | 0x6 => .ok (.shr (fieldX w) (fieldY w))
  | 0x7 => .ok (.rsub (fieldX w) (fieldY w))
  | 0xE => .ok (.shl (fieldX w) (fieldY w))
  | _ => .error (.unknown w)

/-- Family E (R74): split on the low byte. -/
def decodeFamilyE (w : Word) : Except Reject Instr :=
  match (fieldNN w).toNat with
  | 0x9E => .ok (.skp (fieldX w))
  | 0xA1 => .ok (.sknp (fieldX w))
  | _ => .error (.unknown w)

/-- Family F (R74): split on the low byte. -/
def decodeFamilyF (w : Word) : Except Reject Instr :=
  match (fieldNN w).toNat with
  | 0x07 => .ok (.getdt (fieldX w))
  | 0x0A => .ok (.waitk (fieldX w))
  | 0x15 => .ok (.setdt (fieldX w))
  | 0x18 => .ok (.setst (fieldX w))
  | 0x1E => .ok (.addidx (fieldX w))
  | 0x29 => .ok (.font (fieldX w))
  | 0x33 => .ok (.bcd (fieldX w))
  | 0x55 => .ok (.store (fieldX w))
  | 0x65 => .ok (.load (fieldX w))
  | _ => .error (.unknown w)

/-- The decoding of R75, total on all 65536 words: dispatch on the family, then on N or NN. Families 5 and 9 need N = 0
(R77, the spec's decision D2; log 7). The numbers are those of R74 (log 6). -/
def decode (w : Word) : Except Reject Instr :=
  match (fieldOP w).toNat with
  | 0x0 => decodeFamily0 w
  | 0x1 => .ok (.jp (fieldNNN w))
  | 0x2 => .ok (.call (fieldNNN w))
  | 0x3 => .ok (.skeq (fieldX w) (fieldNN w))
  | 0x4 => .ok (.skne (fieldX w) (fieldNN w))
  | 0x5 => if fieldN w = 0 then .ok (.skreq (fieldX w) (fieldY w)) else .error (.unknown w)
  | 0x6 => .ok (.set (fieldX w) (fieldNN w))
  | 0x7 => .ok (.addi (fieldX w) (fieldNN w))
  | 0x8 => decodeFamily8 w
  | 0x9 => if fieldN w = 0 then .ok (.skrne (fieldX w) (fieldY w)) else .error (.unknown w)
  | 0xA => .ok (.seti (fieldNNN w))
  | 0xB => .ok (.jpoff (fieldNNN w))
  | 0xC => .ok (.rnd (fieldX w) (fieldNN w))
  | 0xD => .ok (.draw (fieldX w) (fieldY w) (fieldN w))
  | 0xE => decodeFamilyE w
  | _ => decodeFamilyF w

/-- The 16-bit word of two consecutive bytes, the first one high (R52). -/
def wordOfBytes (hi lo : Byte) : Word := hi ++ lo

/-- Decoding from any byte sequence: one instruction and the bytes after it, or the name of the reason there is none. -/
def decodeBytes : List Byte → Except Reject (Instr × List Byte)
  | hi :: lo :: rest =>
    match decode (wordOfBytes hi lo) with
    | .ok i => .ok (i, rest)
    | .error r => .error r
  | _ => .error .tooShort

/-! The encoder, written from the patterns of R74. -/

/-- The pattern's fixed bits and the operands in their fields (R74, R80). -/
def encode : Instr → Word
  | .cls => 0x00E0
  | .ret => 0x00EE
  | .jp nnn => 0x1#4 ++ nnn
  | .call nnn => 0x2#4 ++ nnn
  | .skeq x nn => 0x3#4 ++ x ++ nn
  | .skne x nn => 0x4#4 ++ x ++ nn
  | .skreq x y => 0x5#4 ++ x ++ y ++ 0x0#4
  | .set x nn => 0x6#4 ++ x ++ nn
  | .addi x nn => 0x7#4 ++ x ++ nn
  | .mov x y => 0x8#4 ++ x ++ y ++ 0x0#4
  | .or x y => 0x8#4 ++ x ++ y ++ 0x1#4
  | .and x y => 0x8#4 ++ x ++ y ++ 0x2#4
  | .xor x y => 0x8#4 ++ x ++ y ++ 0x3#4
  | .add x y => 0x8#4 ++ x ++ y ++ 0x4#4
  | .sub x y => 0x8#4 ++ x ++ y ++ 0x5#4
  | .shr x y => 0x8#4 ++ x ++ y ++ 0x6#4
  | .rsub x y => 0x8#4 ++ x ++ y ++ 0x7#4
  | .shl x y => 0x8#4 ++ x ++ y ++ 0xE#4
  | .skrne x y => 0x9#4 ++ x ++ y ++ 0x0#4
  | .seti nnn => 0xA#4 ++ nnn
  | .jpoff nnn => 0xB#4 ++ nnn
  | .rnd x nn => 0xC#4 ++ x ++ nn
  | .draw x y n => 0xD#4 ++ x ++ y ++ n
  | .skp x => 0xE#4 ++ x ++ 0x9E#8
  | .sknp x => 0xE#4 ++ x ++ 0xA1#8
  | .getdt x => 0xF#4 ++ x ++ 0x07#8
  | .waitk x => 0xF#4 ++ x ++ 0x0A#8
  | .setdt x => 0xF#4 ++ x ++ 0x15#8
  | .setst x => 0xF#4 ++ x ++ 0x18#8
  | .addidx x => 0xF#4 ++ x ++ 0x1E#8
  | .font x => 0xF#4 ++ x ++ 0x29#8
  | .bcd x => 0xF#4 ++ x ++ 0x33#8
  | .store x => 0xF#4 ++ x ++ 0x55#8
  | .load x => 0xF#4 ++ x ++ 0x65#8

/-- The two bytes of an instruction in memory order, the high byte first (R52). -/
def encodeBytes (i : Instr) : List Byte :=
  [(encode i).extractLsb' 8 8, (encode i).extractLsb' 0 8]

/-! The assembler's notation of R80, the spec's own (decision D3). An instruction is written out here; reading a source text
(labels, comments, decimal numbers) is a tool's work, whose result is a list of `AsmItem`. -/

/-- One hexadecimal digit. -/
def hexDigit (n : Nibble) : String :=
  ["0", "1", "2", "3", "4", "5", "6", "7", "8", "9", "A", "B", "C", "D", "E", "F"].getD n.toNat ""

/-- A register operand: V and one hexadecimal digit. -/
def regText (x : Reg) : String := "V" ++ hexDigit x
/-- The immediate n. -/
def nText (n : Nibble) : String := "0x" ++ hexDigit n
/-- The immediate nn. -/
def nnText (nn : Byte) : String := "0x" ++ hexDigit (nn.extractLsb' 4 4) ++ hexDigit (nn.extractLsb' 0 4)
/-- The immediate nnn. -/
def nnnText (nnn : Addr12) : String :=
  "0x" ++ hexDigit (nnn.extractLsb' 8 4) ++ hexDigit (nnn.extractLsb' 4 4) ++ hexDigit (nnn.extractLsb' 0 4)

/-- An instruction's line: the mnemonic of R74 and its operands in the order X, Y, immediate (R80, R81). -/
def asmText : Instr → String
  | .cls => "CLS"
  | .ret => "RET"
  | .jp nnn => "JP " ++ nnnText nnn
  | .call nnn => "CALL " ++ nnnText nnn
  | .skeq x nn => "SKEQ " ++ regText x ++ ", " ++ nnText nn
  | .skne x nn => "SKNE " ++ regText x ++ ", " ++ nnText nn
  | .skreq x y => "SKREQ " ++ regText x ++ ", " ++ regText y
  | .set x nn => "SET " ++ regText x ++ ", " ++ nnText nn
  | .addi x nn => "ADDI " ++ regText x ++ ", " ++ nnText nn
  | .mov x y => "MOV " ++ regText x ++ ", " ++ regText y
  | .or x y => "OR " ++ regText x ++ ", " ++ regText y
  | .and x y => "AND " ++ regText x ++ ", " ++ regText y
  | .xor x y => "XOR " ++ regText x ++ ", " ++ regText y
  | .add x y => "ADD " ++ regText x ++ ", " ++ regText y
  | .sub x y => "SUB " ++ regText x ++ ", " ++ regText y
  | .shr x y => "SHR " ++ regText x ++ ", " ++ regText y
  | .rsub x y => "RSUB " ++ regText x ++ ", " ++ regText y
  | .shl x y => "SHL " ++ regText x ++ ", " ++ regText y
  | .skrne x y => "SKRNE " ++ regText x ++ ", " ++ regText y
  | .seti nnn => "SETI " ++ nnnText nnn
  | .jpoff nnn => "JPOFF " ++ nnnText nnn
  | .rnd x nn => "RND " ++ regText x ++ ", " ++ nnText nn
  | .draw x y n => "DRAW " ++ regText x ++ ", " ++ regText y ++ ", " ++ nText n
  | .skp x => "SKP " ++ regText x
  | .sknp x => "SKNP " ++ regText x
  | .getdt x => "GETDT " ++ regText x
  | .waitk x => "WAITK " ++ regText x
  | .setdt x => "SETDT " ++ regText x
  | .setst x => "SETST " ++ regText x
  | .addidx x => "ADDIDX " ++ regText x
  | .font x => "FONT " ++ regText x
  | .bcd x => "BCD " ++ regText x
  | .store x => "STORE " ++ regText x
  | .load x => "LOAD " ++ regText x

/-- A line of an assembler source, labels resolved: an instruction or one of the three directives (R80). -/
inductive AsmItem where
  /-- An instruction. -/
  | instr (i : Instr)
  /-- `.org a`: the address of the next item. -/
  | org (a : Word)
  /-- `.word w`: a 16-bit value, high byte first. -/
  | word (w : Word)
  /-- `.byte b`: one byte. -/
  | byte (b : Byte)
  deriving DecidableEq, Repr

/-- The bytes of a source with their addresses, in the source's order, the next item's address being `a` (R80). -/
def assembleFrom : Nat → List AsmItem → List (Nat × Byte)
  | _, [] => []
  | _, .org a :: t => assembleFrom a.toNat t
  | a, .byte b :: t => (a, b) :: assembleFrom (a + 1) t
  | a, .word w :: t => (a, w.extractLsb' 8 8) :: (a + 1, w.extractLsb' 0 8) :: assembleFrom (a + 2) t
  | a, .instr i :: t =>
    (a, (encode i).extractLsb' 8 8) :: (a + 1, (encode i).extractLsb' 0 8) :: assembleFrom (a + 2) t

/-- Assembly starts at 0x200 (R80). -/
def assemble (items : List AsmItem) : List (Nat × Byte) := assembleFrom 0x200 items

/-- A row's `mask` and `match` (R74), in this order: a word w selects the row iff `w & mask = match`. -/
def rowOf : Instr → Word × Word
  | .cls => (0xFFFF, 0x00E0)
  | .ret => (0xFFFF, 0x00EE)
  | .jp _ => (0xF000, 0x1000)
  | .call _ => (0xF000, 0x2000)
  | .skeq _ _ => (0xF000, 0x3000)
  | .skne _ _ => (0xF000, 0x4000)
  | .skreq _ _ => (0xF00F, 0x5000)
  | .set _ _ => (0xF000, 0x6000)
  | .addi _ _ => (0xF000, 0x7000)
  | .mov _ _ => (0xF00F, 0x8000)
  | .or _ _ => (0xF00F, 0x8001)
  | .and _ _ => (0xF00F, 0x8002)
  | .xor _ _ => (0xF00F, 0x8003)
  | .add _ _ => (0xF00F, 0x8004)
  | .sub _ _ => (0xF00F, 0x8005)
  | .shr _ _ => (0xF00F, 0x8006)
  | .rsub _ _ => (0xF00F, 0x8007)
  | .shl _ _ => (0xF00F, 0x800E)
  | .skrne _ _ => (0xF00F, 0x9000)
  | .seti _ => (0xF000, 0xA000)
  | .jpoff _ => (0xF000, 0xB000)
  | .rnd _ _ => (0xF000, 0xC000)
  | .draw _ _ _ => (0xF000, 0xD000)
  | .skp _ => (0xF0FF, 0xE09E)
  | .sknp _ => (0xF0FF, 0xE0A1)
  | .getdt _ => (0xF0FF, 0xF007)
  | .waitk _ => (0xF0FF, 0xF00A)
  | .setdt _ => (0xF0FF, 0xF015)
  | .setst _ => (0xF0FF, 0xF018)
  | .addidx _ => (0xF0FF, 0xF01E)
  | .font _ => (0xF0FF, 0xF029)
  | .bcd _ => (0xF0FF, 0xF033)
  | .store _ => (0xF0FF, 0xF055)
  | .load _ => (0xF0FF, 0xF065)

/-- A word selects an instruction's row (R74). -/
abbrev selects (w : Word) (i : Instr) : Prop := w &&& (rowOf i).1 = (rowOf i).2

/-- The host's view of the decoder: the instruction whose `nbits` low bits are those of `w`, bit 0 the least significant
bit of its one 16-bit word, laid out high byte first (R52). -/
def decodeTableWord (nbits w : Nat) : Option Instr :=
  match decodeBytes [BitVec.ofNat 8 (w % 2 ^ nbits / 256), BitVec.ofNat 8 (w % 2 ^ nbits)] with
  | .ok (i, _) => some i
  | .error _ => none

end Sys2Proof
end

