-- ==== Sys2Proof/Machine/State.lean ====
section
/-! DEFINITION. The machine's state (spec/10_state.md R20), the fault record (R34; spec/60_exceptions.md R201) and
reset (R36; spec/70_reset_and_hazards.md R230). -/

namespace Sys2Proof.Machine

open Sys2Proof

/-- The fault record of R34 and R201: the cause, the address `a` of the faulting instruction, and for a data access the
smallest offending address. The model TAKES a fault (log 5): the step answers a next state that holds the record
(`State.raise`), so no step ends in `Host.Outcome.fault`. A faulted state is never a successful end (R202): safe. -/
inductive Fault where
  /-- Code 1, raised by the fetch of any step at `pc >= 0x0FFF`; safe. -/
  | fetchOutOfBounds (a : Word)
  /-- Code 2, raised by DRAW, BCD, STORE and LOAD when their footprint passes address 4095; safe. -/
  | dataOutOfBounds (a : Word) (addr : Nat)
  /-- Code 3, raised by CALL when all `STACK_DEPTH` entries are in use; safe. -/
  | stackOverflow (a : Word)
  /-- Code 4, raised by RET when the stack is empty; safe. -/
  | stackUnderflow (a : Word)
  deriving DecidableEq, Repr

/-- Why an instruction has no meaning. -/
inductive Refusal where
  /-- Raised by an arm of `exec` whose instruction has no meaning yet; there is none. Safe: the model stops. -/
  | notModelled (mnemonic : String)
  deriving DecidableEq, Repr

/-- The display buffer (R29): 32 rows of 64 one-bit cells, row index first. -/
abbrev Display := Vector (Vector Bool 64) 32

/-- Memory (R30): the bytes that differ from what reset leaves at their address, by strictly rising address
(`Memory.wf`; log 20). -/
abbrev Memory := List Host.Cell

/-- The complete state of R20, the batch position of R33 (b), the configuration record of R32, and three fields of the
model's own that carry the inputs of the machine (logs 2 and 3). -/
structure State where
  /-- The configuration record, fixed at construction (R6, R32, R234). -/
  cfg : Config
  /-- `V[0..15]` (R21). -/
  v : Vector Byte 16
  /-- The index register (R23). -/
  i : Word
  /-- The program counter: between steps, the address of the next instruction (R24). -/
  pc : Word
  /-- The call stack's `STACK_DEPTH` slots (R26). -/
  stack : List Word
  /-- The number of stack entries in use (R26). -/
  sp : Nat
  /-- The delay timer (R27). -/
  dt : Byte
  /-- The sound timer (R28). -/
  st : Byte
  /-- The display buffer (R29). -/
  disp : Display
  /-- Memory (R30). -/
  mem : Memory
  /-- The key mask latched by the current tick (R31). -/
  keys : Word
  /-- The fault record, if the core has stopped (R34). -/
  fault : Option Fault
  /-- How many instructions of the current tick have been executed; 0 is the batch boundary (R33, R95). -/
  tickPos : Nat
  /-- The model's own: how many ticks have begun (log 3). -/
  ticks : Nat
  /-- The model's own: the masks the host has ready for its next ticks, the next one first (log 3). -/
  hostMasks : List Word
  /-- The model's own: how many random bytes have been drawn (log 2). -/
  draws : Nat
  deriving DecidableEq, Repr

/-- Construction, which is reset (R36, R230). Memory lists nothing: it holds the font copy and zeros (R36). -/
def State.construct (c : Config) : State where
  cfg := c
  v := Vector.replicate 16 0
  i := 0
  pc := 0x200
  stack := List.replicate c.stackDepth 0
  sp := 0
  dt := 0
  st := 0
  disp := Vector.replicate 32 (Vector.replicate 64 false)
  mem := []
  keys := 0
  fault := none
  tickPos := 0
  ticks := 0
  hostMasks := []
  draws := 0

/-- The machine right after reset with the sample record (log 1). Statements about reset speak of `State.construct c` for
every record `c`. -/
def State.reset : State := State.construct Config.sample

end Sys2Proof.Machine
end

