-- ==== Sys2Proof/Machine/Ops.lean ====
section
/-! DEFINITION. The named operations over memory, registers, stack and display, and taking a fault
(spec/00_scope.md R8; spec/20_memory.md; spec/60_exceptions.md R202). A return from an exception does not exist on this
hardware (R203: "There is no return-from-trap instruction"). -/

namespace Sys2Proof.Machine

open Sys2Proof

/-- What a meaning answers. -/
abbrev Result := Host.Outcome State Fault Refusal

/-! Memory: `mem[a]` for 0 <= a <= 4095 (R30, R50). -/

/-- What an address that memory does not list reads as: reset's contents, the font copy and zeros (R36). -/
def resetByte (c : Config) (a : Nat) : Byte :=
  if c.fontBase ≤ a then c.fontTable.toList.getD (a - c.fontBase) 0 else 0

/-- The entry of an address, if memory lists one. -/
def Memory.lookup : Memory → Nat → Option Byte
  | [], _ => none
  | (k, b) :: t, a => if k = a then some b else Memory.lookup t a

/-- `mem[a]`, with no check (R8). -/
def Memory.read (c : Config) (m : Memory) (a : Nat) : Byte :=
  (Memory.lookup m a).getD (resetByte c a)

/-- Put an entry at its place in the rising order, instead of the one there. -/
def Memory.insert : Memory → Nat → Byte → Memory
  | [], a, b => [(a, b)]
  | (k, x) :: t, a, b =>
    if a < k then (a, b) :: (k, x) :: t
    else if a = k then (a, b) :: t
    else (k, x) :: Memory.insert t a b

/-- Take the entry of an address away. -/
def Memory.erase : Memory → Nat → Memory
  | [], _ => []
  | (k, x) :: t, a => if k = a then t else (k, x) :: Memory.erase t a

/-- `mem[a] <- b`, with no check (R8). Writing what reset left there removes the entry, so equal memories are equal lists. -/
def Memory.write (c : Config) (m : Memory) (a : Nat) (b : Byte) : Memory :=
  if b = resetByte c a then Memory.erase m a else Memory.insert m a b

/-- The canonical form: addresses strictly rising, all of them in 0..4095, no entry equal to what an unlisted address
reads as. -/
abbrev Memory.wf (c : Config) (m : Memory) : Prop :=
  m.Pairwise (fun p q => p.1 < q.1) ∧ ∀ p ∈ m, p.1 ≤ 4095 ∧ p.2 ≠ resetByte c p.1

/-! Registers (R8, R21). No register is hardwired. -/

/-- Read `V[x]`. -/
def State.getV (s : State) (x : Reg) : Byte := s.v[x.toNat]'x.isLt

/-- `V[x] <- b`. -/
def State.setV (s : State) (x : Reg) (b : Byte) : State := { s with v := s.v.set x.toNat b x.isLt }

/-- `VF`, general register 15 (R22). -/
abbrev vf : Reg := 0xF

/-- `I <- w`. -/
def State.setI (s : State) (w : Word) : State := { s with i := w }

/-- `pc <- w`. -/
def State.setPc (s : State) (w : Word) : State := { s with pc := w }

/-- The advance the fetch makes before the instruction runs: pc becomes a + 2 (R24, R90, R92). A meaning gets the state
before the advance, so `s.pc` is the address `a` its instruction was fetched from, and makes the advance itself (log 21). -/
def State.advance (s : State) : State := s.setPc (s.pc + 2)

/-- A skip: `pc <- (pc + 2) mod 2^16` if the condition holds (R118). -/
def State.skipIf (s : State) (c : Bool) : State := s.setPc (if c then s.pc + 2 else s.pc)

/-- The result to `V[x]`, then the flag to VF, in this order: where x names VF the flag stays (R142, decision D12; log 8). -/
def State.setResultThenFlag (s : State) (x : Reg) (result flag : Byte) : State := (s.setV x result).setV vf flag

/-! The timers (R27, R28). -/

/-- `DT <- b`. -/
def State.setDt (s : State) (b : Byte) : State := { s with dt := b }

/-- `ST <- b`. -/
def State.setSt (s : State) (b : Byte) : State := { s with st := b }

/-! The call stack (R26). -/

/-- `stack[sp] <- w`, then `sp <- sp + 1`. -/
def State.push (s : State) (w : Word) : State := { s with stack := s.stack.set s.sp w, sp := s.sp + 1 }

/-- `stack[j]`. A slot past the stack's length is one no run reaches (`Safety.StackWf`); it reads as 0 (log 14). -/
def State.stackAt (s : State) (j : Nat) : Word := s.stack.getD j 0

/-- `sp <- sp - 1`; the popped slot keeps its content. -/
def State.dropTop (s : State) : State := { s with sp := s.sp - 1 }

/-! Memory through the state. -/

/-- `mem[a]` (R8). -/
def State.readByte (s : State) (a : Nat) : Byte := Memory.read s.cfg s.mem a

/-- `mem[a] <- b` (R8), used only after the footprint's check. -/
def State.writeByte (s : State) (a : Nat) (b : Byte) : State := { s with mem := Memory.write s.cfg s.mem a b }

/-! The display (R29). -/

/-- `disp[y][x]`; outside the 32 rows and 64 columns there is no cell, and the blitter never asks for one. -/
def Display.cell (d : Display) (y x : Nat) : Bool :=
  if h : y < 32 ∧ x < 64 then (d[y]'h.1)[x]'h.2 else false

/-- `disp[y][x] <- b`. -/
def Display.setCell (d : Display) (y x : Nat) (b : Bool) : Display :=
  if h : y < 32 ∧ x < 64 then d.set y ((d[y]'h.1).set x b h.2) h.1 else d

/-- The display with every cell 0 (R36, R170). -/
def Display.clear : Display := Vector.replicate 32 (Vector.replicate 64 false)

/-- `disp[y][x]` of a state. -/
def State.cell (s : State) (y x : Nat) : Bool := Display.cell s.disp y x

/-- The display replaced. -/
def State.setDisp (s : State) (d : Display) : State := { s with disp := d }

/-! The random source (R100, R212). -/

/-- The draw an execution of RND consumes is spent: the next one is fresh (R100; log 2). -/
def State.spendDraw (s : State) : State := { s with draws := s.draws + 1 }

/-! Taking a fault (R202). -/

/-- `raise F`: the state is exactly as before the step, pc = a, and the record is set (R202). The argument must be the
state before the instruction's effects, which is what every meaning gets. -/
def State.raise (s : State) (f : Fault) : State := { s with fault := some f }

/-- The code of R201. -/
def Fault.code : Fault → Nat
  | .fetchOutOfBounds _ => 1
  | .dataOutOfBounds _ _ => 2
  | .stackOverflow _ => 3
  | .stackUnderflow _ => 4

/-- Whether a footprint of `n` bytes from I passes address 4095 (R55). Addresses are natural numbers, never wrapped. -/
def State.footprintPasses (s : State) (n : Nat) : Bool := 0 < n && 4095 < s.i.toNat + n - 1

/-- A memory instruction with a footprint of `n` bytes from I: the whole footprint is checked before any effect, and on
failure the smallest offending address is recorded, `max(I, 4096)` (R55, R201, decision D26). `s` is the state before the
instruction, `t` the state its effects leave. -/
def State.checkFootprint (s : State) (n : Nat) (t : State) : State :=
  if s.footprintPasses n then s.raise (.dataOutOfBounds s.pc (max s.i.toNat 4096)) else t

end Sys2Proof.Machine
end

