-- ==== Sys2Proof/Machine/Operands.lean ====
section
/-! DEFINITION. The operand forms and the values instructions compute from their operands. -/

namespace Sys2Proof.Machine

open Sys2Proof

/-- `zext_16(NNN)` (R73). -/
def addrOf (nnn : Addr12) : Word := nnn.setWidth 16

/-- `zext_16` of a register's byte (R73). -/
def zextByte (b : Byte) : Word := b.setWidth 16

/-- The source of SHR and SHL: `V[X]` under `Q_SHIFT_VX`, else `V[Y]` (R138, R140). -/
def State.shiftSource (s : State) (x y : Reg) : Byte := if s.cfg.qShiftVx then s.getV x else s.getV y

/-- JPOFF's register selector, the high nibble of NNN (R72, R117). -/
def selectorOf (nnn : Addr12) : Reg := nnn.extractLsb' 8 4

/-- The register JPOFF adds: `V[X]` under `Q_JUMP_VX`, else `V[0]` (R117). -/
def State.jumpOffset (s : State) (nnn : Addr12) : Byte := if s.cfg.qJumpVx then s.getV (selectorOf nnn) else s.getV 0

/-- The byte this execution of RND draws (R100; log 2). -/
def State.draw (s : State) : Byte := Config.freeRandom s.draws

/-- RND's result, the draw AND NN (R141). -/
def randomResult (draw nn : Byte) : Byte := draw &&& nn

/-- The address of a glyph: `(b & 0x0F) * 5 + FONT_BASE` (R152). -/
def glyphAddr (c : Config) (b : Byte) : Word := BitVec.ofNat 16 ((b &&& 0x0F).toNat * 5 + c.fontBase)

/-- The decimal digits of a byte: hundreds, tens, units (R153). -/
def bcdHundreds (b : Byte) : Byte := BitVec.ofNat 8 (b.toNat / 100)
/-- The tens digit (R153). -/
def bcdTens (b : Byte) : Byte := BitVec.ofNat 8 (b.toNat / 10 % 10)
/-- The units digit (R153). -/
def bcdUnits (b : Byte) : Byte := BitVec.ofNat 8 (b.toNat % 10)

/-- I after STORE Vx or LOAD Vx: `(I + X + 1) mod 2^16`, or unchanged under `Q_MEM_KEEP_I` (R154, R155). -/
def State.indexAfterBlock (s : State) (x : Reg) : Word :=
  if s.cfg.qMemKeepI then s.i else s.i + BitVec.ofNat 16 (x.toNat + 1)

/-- How many bytes STORE Vx and LOAD Vx move: V0 to VX inclusive (R154, R155). -/
def blockLength (x : Reg) : Nat := x.toNat + 1

/-- DRAW's origin column, `V[X] mod 64` (R171). -/
def State.originX (s : State) (x : Reg) : Nat := (s.getV x).toNat % 64

/-- DRAW's origin row, `V[Y] mod 32` (R171). -/
def State.originY (s : State) (y : Reg) : Nat := (s.getV y).toNat % 32

/-- How many sprite rows DRAW draws: those inside the buffer, `min(N, 32 - y0)` (R171, R173). -/
def State.rowsDrawn (s : State) (y : Reg) (n : Nibble) : Nat := min n.toNat (32 - s.originY y)

/-- `keybit(k)`: bit k of the key mask when k <= 15, else 0 (R186, decision D15; log 11). -/
def keybit (keys : Word) (k : Byte) : Bool := if k.toNat ≤ 15 then keys.getLsbD k.toNat else false

/-- The lowest-numbered key held from key `k` on, among `n` keys; `none` if none of them is held. -/
def lowestKeyFrom (keys : Word) : Nat → Nat → Option Nat
  | _, 0 => none
  | k, n + 1 => if keys.getLsbD k then some k else lowestKeyFrom keys (k + 1) n

/-- "the least i in 0..15 with KEYS[i] = 1" (R183), asked only when the mask is not empty. -/
def lowestKey (keys : Word) : Byte := BitVec.ofNat 8 ((lowestKeyFrom keys 0 16).getD 0)

end Sys2Proof.Machine
end

