-- ==== Sys2Proof/Machine/Flags.lean ====
section
/-! DEFINITION. Every flag computation (spec/10_state.md R22): the value VF receives, 0 or 1. -/

namespace Sys2Proof.Machine

open Sys2Proof

/-- A flag's byte: 1 or 0 (R22). -/
def flagByte (b : Bool) : Byte := if b then 1 else 0

/-- ADD: 1 if the untruncated sum exceeds 255 (R136). -/
def carryFlag (a b : Byte) : Byte := flagByte (255 < a.toNat + b.toNat)

/-- SUB and RSUB: 1 if there is no borrow, minuend >= subtrahend (R137, R139). -/
def noBorrowFlag (minuend subtrahend : Byte) : Byte := flagByte (subtrahend.toNat ≤ minuend.toNat)

/-- SHR: bit 0 of the source (R138). -/
def shiftedOutLow (b : Byte) : Byte := flagByte (b.getLsbD 0)

/-- SHL: bit 7 of the source (R140). -/
def shiftedOutHigh (b : Byte) : Byte := flagByte (b.getLsbD 7)

/-- ADDIDX: whether it sets VF, that is `Q_INDEX_OVF` and the new I above 0x0FFF (R151, decision D14; log 10). -/
def indexOverflow (c : Config) (newI : Word) : Bool := c.qIndexOvf && decide (0x0FFF < newI.toNat)

end Sys2Proof.Machine
end

