-- ==== Sys2Proof/Machine/Alu.lean ====
section
/-! DEFINITION. Register and ALU instructions (spec/42_alu.md): SET, ADDI, MOV, OR, AND, XOR, ADD, SUB, SHR, RSUB, SHL, RND.
All leave pc at a + 2 and raise no fault. ADD, SUB, SHR, RSUB and SHL read, write the result, then write the flag (R142). -/

namespace Sys2Proof.Machine

open Sys2Proof

/-- SET Vx, nn (R130). -/
def execSet (x : Reg) (nn : Byte) (s : State) : Result := .next (s.advance.setV x nn)

/-- ADDI Vx, nn (R131): mod 256, no flag. -/
def execAddi (x : Reg) (nn : Byte) (s : State) : Result := .next (s.advance.setV x (s.getV x + nn))

/-- MOV Vx, Vy (R132). -/
def execMov (x y : Reg) (s : State) : Result := .next (s.advance.setV x (s.getV y))

/-- OR Vx, Vy (R133): VF is not written. -/
def execOr (x y : Reg) (s : State) : Result := .next (s.advance.setV x (s.getV x ||| s.getV y))

/-- AND Vx, Vy (R134): VF is not written. -/
def execAnd (x y : Reg) (s : State) : Result := .next (s.advance.setV x (s.getV x &&& s.getV y))

/-- XOR Vx, Vy (R135): VF is not written. -/
def execXor (x y : Reg) (s : State) : Result := .next (s.advance.setV x (s.getV x ^^^ s.getV y))

/-- ADD Vx, Vy (R136). -/
def execAdd (x y : Reg) (s : State) : Result :=
  .next (s.advance.setResultThenFlag x (s.getV x + s.getV y) (carryFlag (s.getV x) (s.getV y)))

/-- SUB Vx, Vy (R137): X − Y. -/
def execSub (x y : Reg) (s : State) : Result :=
  .next (s.advance.setResultThenFlag x (s.getV x - s.getV y) (noBorrowFlag (s.getV x) (s.getV y)))

/-- SHR Vx, Vy (R138). -/
def execShr (x y : Reg) (s : State) : Result :=
  .next (s.advance.setResultThenFlag x (s.shiftSource x y >>> 1) (shiftedOutLow (s.shiftSource x y)))

/-- RSUB Vx, Vy (R139): Y − X, to V[X]. -/
def execRsub (x y : Reg) (s : State) : Result :=
  .next (s.advance.setResultThenFlag x (s.getV y - s.getV x) (noBorrowFlag (s.getV y) (s.getV x)))

/-- SHL Vx, Vy (R140). -/
def execShl (x y : Reg) (s : State) : Result :=
  .next (s.advance.setResultThenFlag x (s.shiftSource x y <<< 1) (shiftedOutHigh (s.shiftSource x y)))

/-- RND Vx, nn (R141): one fresh draw per execution, a free value (log 2). -/
def execRnd (x : Reg) (nn : Byte) (s : State) : Result :=
  .next (s.advance.spendDraw.setV x (randomResult s.draw nn))

end Sys2Proof.Machine
end

