-- ==== Sys2Proof/Machine/Blitter.lean ====
section
/-! DEFINITION. Display instructions (spec/44_display.md): CLS, DRAW. -/

namespace Sys2Proof.Machine

open Sys2Proof

/-- CLS (R170): VF is not written. -/
def execCls (s : State) : Result := .next (s.advance.setDisp Display.clear)

/-- One sprite bit (R171's inner body), bit 7 - c of the row's byte at column x0 + c of row y: beyond column 63 it is
clipped, a 0 changes nothing, a 1 toggles the cell, and turning a cell off is the collision. -/
def blitBit (b : Byte) (x0 y : Nat) (dc : Display × Bool) (c : Nat) : Display × Bool :=
  if x0 + c ≤ 63 ∧ b.getLsbD (7 - c) = true then
    if Display.cell dc.1 y (x0 + c) then (Display.setCell dc.1 y (x0 + c) false, true)
    else (Display.setCell dc.1 y (x0 + c) true, dc.2)
  else dc

/-- One sprite row: its eight bits, c from 0 to 7, the most significant first (R171). -/
def blitRow (b : Byte) (x0 y : Nat) (dc : Display × Bool) : Display × Bool :=
  [0, 1, 2, 3, 4, 5, 6, 7].foldl (blitBit b x0 y) dc

/-- The first `rows` rows of the sprite at I, read from memory and drawn on successive rows from y0 (R171). The second
component is whether a cell was turned off. -/
def State.blitRows (s : State) (x0 y0 : Nat) : Nat → Display × Bool
  | 0 => (s.disp, false)
  | r + 1 => blitRow (s.readByte (s.i.toNat + r)) x0 (y0 + r) (State.blitRows s x0 y0 r)

/-- DRAW Vx, Vy, n (R171, R173): the origin is read before VF is reset (decision D13; log 9), only the rows drawn are
read (decision D26), I is unchanged. -/
def execDraw (x y : Reg) (n : Nibble) (s : State) : Result :=
  .next (s.checkFootprint (s.rowsDrawn y n)
    ((s.advance.setDisp (s.blitRows (s.originX x) (s.originY y) (s.rowsDrawn y n)).1).setV vf
      (flagByte (s.blitRows (s.originX x) (s.originY y) (s.rowsDrawn y n)).2)))

end Sys2Proof.Machine
end

