-- ==== Sys2Proof/Machine/Control.lean ====
section
/-! DEFINITION. Control transfer (spec/41_control_transfer.md): RET, JP, CALL, SKEQ, SKNE, SKREQ, SKRNE, JPOFF.
Every meaning gets the state before the advance, so `s.pc` is `a` (log 21). -/

namespace Sys2Proof.Machine

open Sys2Proof

/-- RET (R110). -/
def execRet (s : State) : Result :=
  .next (if s.sp = 0 then s.raise (.stackUnderflow s.pc)
    else s.dropTop.setPc (s.stackAt (s.sp - 1)))

/-- JP nnn (R111). -/
def execJp (nnn : Addr12) (s : State) : Result := .next (s.setPc (addrOf nnn))

/-- CALL nnn (R112): the address after the CALL, a + 2, is pushed. -/
def execCall (nnn : Addr12) (s : State) : Result :=
  .next (if s.sp = s.cfg.stackDepth then s.raise (.stackOverflow s.pc)
    else (s.push s.advance.pc).setPc (addrOf nnn))

/-- SKEQ Vx, nn (R113). -/
def execSkeq (x : Reg) (nn : Byte) (s : State) : Result := .next (s.advance.skipIf (s.getV x = nn))

/-- SKNE Vx, nn (R114). -/
def execSkne (x : Reg) (nn : Byte) (s : State) : Result := .next (s.advance.skipIf (s.getV x ≠ nn))

/-- SKREQ Vx, Vy (R115). -/
def execSkreq (x y : Reg) (s : State) : Result := .next (s.advance.skipIf (s.getV x = s.getV y))

/-- SKRNE Vx, Vy (R116). -/
def execSkrne (x y : Reg) (s : State) : Result := .next (s.advance.skipIf (s.getV x ≠ s.getV y))

/-- JPOFF nnn (R117): the sum is of the full 12-bit NNN and a register, mod 2^16, not reduced to 12 bits. -/
def execJpoff (nnn : Addr12) (s : State) : Result :=
  .next (s.setPc (addrOf nnn + zextByte (s.jumpOffset nnn)))

end Sys2Proof.Machine
end

