-- ==== Sys2Proof/Machine/Index.lean ====
section
/-! DEFINITION. Index-register and memory instructions (spec/43_index_memory.md): SETI, ADDIDX, FONT, BCD, STORE, LOAD.
BCD, STORE and LOAD check their whole footprint before any effect (R55, R156). -/

namespace Sys2Proof.Machine

open Sys2Proof

/-- SETI nnn (R150). -/
def execSeti (nnn : Addr12) (s : State) : Result := .next (s.advance.setI (addrOf nnn))

/-- What ADDIDX leaves in I: `(I + V[X]) mod 2^16` (R151). -/
def State.indexPlus (s : State) (x : Reg) : Word := s.i + zextByte (s.getV x)

/-- ADDIDX Vx (R151): VF is set to 1 or left alone, never cleared. -/
def execAddidx (x : Reg) (s : State) : Result :=
  .next ((s.advance.setI (s.indexPlus x)).setV vf
    (if indexOverflow s.cfg (s.indexPlus x) then 1 else s.getV vf))

/-- FONT Vx (R152): it computes an address and reads no memory. -/
def execFont (x : Reg) (s : State) : Result := .next (s.advance.setI (glyphAddr s.cfg (s.getV x)))

/-- The three digits of a byte to I, I + 1 and I + 2 (R153). -/
def State.writeDigits (s : State) (b : Byte) : State :=
  ((s.writeByte s.i.toNat (bcdHundreds b)).writeByte (s.i.toNat + 1) (bcdTens b)).writeByte (s.i.toNat + 2) (bcdUnits b)

/-- BCD Vx (R153): I is unchanged. -/
def execBcd (x : Reg) (s : State) : Result :=
  .next (s.checkFootprint 3 (s.advance.writeDigits (s.getV x)))

/-- The first `n` registers to `n` bytes from `base`, in ascending order (R154). -/
def State.storeRegs (s : State) (base : Nat) : Nat → State
  | 0 => s
  | n + 1 => (State.storeRegs s base n).writeByte (base + n) (s.getV (BitVec.ofNat 4 n))

/-- STORE Vx (R154). -/
def execStore (x : Reg) (s : State) : Result :=
  .next (s.checkFootprint (blockLength x)
    ((s.advance.storeRegs s.i.toNat (blockLength x)).setI (s.indexAfterBlock x)))

/-- `n` bytes from `base` to the first `n` registers, in ascending order (R155). -/
def State.loadRegs (s : State) (base : Nat) : Nat → State
  | 0 => s
  | n + 1 => (State.loadRegs s base n).setV (BitVec.ofNat 4 n) (s.readByte (base + n))

/-- LOAD Vx (R155). -/
def execLoad (x : Reg) (s : State) : Result :=
  .next (s.checkFootprint (blockLength x)
    ((s.advance.loadRegs s.i.toNat (blockLength x)).setI (s.indexAfterBlock x)))

end Sys2Proof.Machine
end

