-- ==== Sys2Proof/Machine/TimersKeys.lean ====
section
/-! DEFINITION. Timer and key instructions (spec/45_timers_keys.md): SKP, SKNP, GETDT, WAITK, SETDT, SETST.
None raises a fault. -/

namespace Sys2Proof.Machine

open Sys2Proof

/-- SKP Vx (R180). -/
def execSkp (x : Reg) (s : State) : Result := .next (s.advance.skipIf (keybit s.keys (s.getV x)))

/-- SKNP Vx (R181). -/
def execSknp (x : Reg) (s : State) : Result := .next (s.advance.skipIf (!keybit s.keys (s.getV x)))

/-- GETDT Vx (R182). -/
def execGetdt (x : Reg) (s : State) : Result := .next (s.advance.setV x s.dt)

/-- WAITK Vx (R183): with no key held pc goes back to a and nothing changes, so the next step fetches it again; otherwise the
lowest-numbered key held goes to V[X]. There is no waiting state (R238, conflict C7). -/
def execWaitk (x : Reg) (s : State) : Result :=
  .next ((s.setPc (if s.keys = 0 then s.advance.pc - 2 else s.advance.pc)).setV x
    (if s.keys = 0 then s.getV x else lowestKey s.keys))

/-- SETDT Vx (R184). -/
def execSetdt (x : Reg) (s : State) : Result := .next (s.advance.setDt (s.getV x))

/-- SETST Vx (R185). -/
def execSetst (x : Reg) (s : State) : Result := .next (s.advance.setSt (s.getV x))

end Sys2Proof.Machine
end

