-- ==== Sys2Proof/Machine/Sequencer.lean ====
section
/-! DEFINITION. What stands around an instruction (spec/40_execution_cycle.md): the fetch, an UNKNOWN word, and the two
ends of a tick. -/

namespace Sys2Proof.Machine

open Sys2Proof

/-- The fetch (R91): the two bytes at pc, the first one high; none at `pc >= 0x0FFF`, where one of them lies above 4095. -/
def State.fetch (s : State) : Option Word :=
  if 4095 < s.pc.toNat + 1 then none
  else some (wordOfBytes (s.readByte s.pc.toNat) (s.readByte (s.pc.toNat + 1)))

/-- UNKNOWN (R94): a no-op that leaves pc = a + 2, for every word alike (R76, R78). The diagnostic event is an output
(`State.diag`) with no effect. -/
def execUnknown (_w : Word) (s : State) : Result := .next s.advance

/-- The mask of the tick that begins: the next of the host's queue, or the free value where the queue is empty (R96; log 3). -/
def State.nextMask (s : State) : Word := s.hostMasks.headD (Config.freeKeyMask s.ticks)

/-- The start of a tick: KEYS is replaced by the host's mask (R95, R96). -/
def State.latchKeys (s : State) : State :=
  { s with keys := s.nextMask, hostMasks := s.hostMasks.tail, ticks := s.ticks + 1 }

/-- A step at the batch boundary starts a tick; any other step changes nothing here (R95). -/
def State.beginStep (s : State) : State := if s.tickPos = 0 then s.latchKeys else s

/-- One timer's count at a tick's end: down by 1 if it is not 0 (R97). -/
def countDown (t : Byte) : Byte := if t = 0 then 0 else t - 1

/-- The end of a tick: both timers count down (R95, R97). -/
def State.countTimers (s : State) : State := { s with dt := countDown s.dt, st := countDown s.st }

/-- Whether the step under way is the last of its tick's budget (R95). -/
def State.lastOfTick (s : State) : Bool := s.cfg.ipf ≤ s.tickPos + 1

/-- After a step without a fault: the batch position advances, and after the last step of the budget the timers count down
and the boundary is reached. A fault ends the tick at once: no count, no further step (R95, R98; log 16). -/
def State.endStep (s : State) : State :=
  if s.fault.isSome then s
  else if s.lastOfTick then { s.countTimers with tickPos := 0 }
  else { s with tickPos := s.tickPos + 1 }

end Sys2Proof.Machine
end

