-- ==== Sys2Proof/Machine/Cycle.lean ====
section
/-! DEFINITION. The spec's Step and Tick (spec/40_execution_cycle.md R90, R95). -/

namespace Sys2Proof.Machine

open Sys2Proof

/-- Execution of a fetched word: the instruction it decodes to, or the no-op of an UNKNOWN word (R75, R90, R94). -/
def execWord (w : Word) (s : State) : Result :=
  match decode w with
  | .ok i => exec i s
  | .error _ => execUnknown w s

/-- Fetch and execution in a state that has not faulted; a fetch out of bounds takes its fault (R90, R91). -/
def fetchExecute (s : State) : Result :=
  match s.fetch with
  | none => .next (s.raise (.fetchOutOfBounds s.pc))
  | some w => execWord w s

/-- The spec's Step (R90): nothing if the core has faulted, else one instruction. -/
def stepInstr (s : State) : Result := if s.fault.isSome then .next s else fetchExecute s

/-- `n` Steps, ended early by a fault (R95, R98). -/
def runBatch : Nat → State → Result
  | 0, s => .next s
  | n + 1, s =>
    match stepInstr s with
    | .next t => if t.fault.isSome then .next t else runBatch n t
    | .fault f => .fault f
    | .refused r => .refused r

/-- The spec's Tick(k), as the host calls it (R95). It leaves the model's own fields `tickPos`, `ticks` and `hostMasks` alone:
`step` runs the same instructions one at a time and keeps them (log 4). -/
def tick (k : Word) (s : State) : Result :=
  if s.fault.isSome then .next s
  else
    match runBatch s.cfg.ipf { s with keys := k } with
    | .next t => .next (if t.fault.isSome then t else t.countTimers)
    | .fault f => .fault f
    | .refused r => .refused r

end Sys2Proof.Machine
end

