-- ==== Sys2Proof/Machine/HostInterface.lean ====
section
/-! DEFINITION. What the host does between ticks (spec/70_reset_and_hazards.md R232, R241; spec/60_exceptions.md R209 to
R214). Construction is `State.construct`, a tick is `tick`. -/

namespace Sys2Proof.Machine

open Sys2Proof

/-- Load of an image's bytes from an address on: byte for byte, stopping at the memory ceiling (R232). -/
def State.loadFrom : Nat → List Byte → State → State
  | _, [], s => s
  | a, b :: bs, s => if a ≤ 4095 then State.loadFrom (a + 1) bs (s.writeByte a b) else s

/-- Load(image): from 0x200; bytes beyond the ceiling are dropped, which is no fault (R232). -/
def State.load (image : List Byte) (s : State) : State := State.loadFrom 0x200 image s

/-- Boot: construction, then one complete load; the state a run starts from (R231, R233). -/
def State.boot (c : Config) (image : List Byte) : State := (State.construct c).load image

/-- The display query: the cell at row y, column x, read between ticks, with no effect (R64, R211, R241). -/
def State.displayQuery (s : State) (y : Fin 32) (x : Fin 64) : Bool := s.cell y.val x.val

/-- The sound query (R209, R241). -/
def State.stQuery (s : State) : Byte := s.st

/-- `sound_on = (ST != 0)` (R209). -/
def State.soundOn (s : State) : Bool := s.st != 0

/-- The fault query (R203, R241). -/
def State.faultQuery (s : State) : Option Fault := s.fault

/-- An event of the diagnostic channel (R99). The per-instruction state dump has no specified content (log 18). -/
inductive Diag where
  /-- An UNKNOWN word `w` executed at `a` (R94). -/
  | unknownOpcode (a w : Word)
  deriving DecidableEq, Repr

/-- The event the next step emits: an output computed from the state, with no effect on it (R94, R99; log 18). -/
def State.diag (s : State) : Option Diag :=
  if s.fault.isSome then none
  else
    match s.fetch with
    | none => none
    | some w =>
      match decode w with
      | .ok _ => none
      | .error _ => some (.unknownOpcode s.pc w)

end Sys2Proof.Machine
end

