-- ==== Sys2Proof/Machine/Step.lean ====
section
/-! DEFINITION. The machine's step: one instruction, with the tick boundary it stands at (spec/40_execution_cycle.md R90,
R95 to R98; log 4). -/

namespace Sys2Proof.Machine

open Sys2Proof

/-- One step. Nothing if the core has faulted (R203); else, at a batch boundary the key mask is latched, one instruction runs,
and after the last instruction of the budget the timers count down. -/
def step (s : State) : Host.Outcome State Fault Refusal :=
  if s.fault.isSome then .next s
  else
    match stepInstr s.beginStep with
    | .next t => .next t.endStep
    | .fault f => .fault f
    | .refused r => .refused r

/-- The table's word stored where the next step fetches: its high byte at pc, its low byte at pc + 1 (R52). A faulted core
fetches nothing, so the record is cleared; where pc lies at the end of memory there is no place to store it (log 17). -/
def State.withFetchWord (s : State) (nbits w : Nat) : State :=
  if 4095 < s.pc.toNat + 1 then s
  else
    { (s.writeByte s.pc.toNat (BitVec.ofNat 8 (w % 2 ^ nbits / 256))).writeByte (s.pc.toNat + 1)
        (BitVec.ofNat 8 (w % 2 ^ nbits)) with fault := none }

end Sys2Proof.Machine
end

