-- ==== Sys2Proof/Safety.lean ====
section
/-! DEFINITION. What counts as a good state and as an unchanged part of one, in the terms claims use. -/

namespace Sys2Proof.Safety

open Sys2Proof Sys2Proof.Machine

/-- A state a successful run may be in: the core has not faulted (spec/60_exceptions.md R202). -/
abbrev Safe (s : State) : Prop := s.fault = none

/-- Memory holds its canonical form: every listed address is one of 0..4095 (spec/20_memory.md R50, R54). -/
abbrev MemoryWf (s : State) : Prop := Memory.wf s.cfg s.mem

/-- The call stack: STACK_DEPTH slots, sp within them, and every slot holds an address a CALL may have pushed, at most
0x1000 (spec/10_state.md R25, R26; spec/41_control_transfer.md R112). -/
abbrev StackWf (s : State) : Prop :=
  s.stack.length = s.cfg.stackDepth ∧ s.sp ≤ s.cfg.stackDepth ∧ ∀ w ∈ s.stack, w.toNat ≤ 0x1000

/-- The program counter's range after any step without a fault (spec/10_state.md R25). -/
abbrev PcWf (s : State) : Prop := s.pc.toNat ≤ 0x10FE

/-- The batch position is one of the budget's (spec/40_execution_cycle.md R95). -/
abbrev BatchWf (s : State) : Prop := s.tickPos < s.cfg.ipf

/-- The invariant of the machine. -/
abbrev Inv (s : State) : Prop :=
  s.cfg.WellFormed ∧ MemoryWf s ∧ StackWf s ∧ PcWf s ∧ BatchWf s

/-- `n` steps of the machine. -/
def runSteps : Nat → State → Result
  | 0, s => .next s
  | n + 1, s =>
    match step s with
    | .next t => runSteps n t
    | .fault f => .fault f
    | .refused r => .refused r

/-! Frames: what is the same in `t` as in `s`. -/

/-- Every general register not listed reads as before. -/
abbrev KeepsRegsBut (written : List Reg) (s t : State) : Prop := ∀ x, x ∉ written → t.getV x = s.getV x

/-- Every byte of memory reads as before. -/
abbrev KeepsMemory (s t : State) : Prop := ∀ a, t.readByte a = s.readByte a

/-- Every display cell is as before. -/
abbrev KeepsDisplay (s t : State) : Prop := ∀ y x, t.cell y x = s.cell y x

/-- The call stack and its pointer are as before. -/
abbrev KeepsStack (s t : State) : Prop := t.stack = s.stack ∧ t.sp = s.sp

/-- Both timers are as before. -/
abbrev KeepsTimers (s t : State) : Prop := t.dt = s.dt ∧ t.st = s.st

/-- The configuration, the key mask, the fault record, the batch position and the model's queue of masks are as before:
what no instruction writes (but for a fault's record). -/
abbrev KeepsControl (s t : State) : Prop :=
  t.cfg = s.cfg ∧ t.keys = s.keys ∧ t.fault = s.fault ∧ t.tickPos = s.tickPos ∧ t.ticks = s.ticks ∧
    t.hostMasks = s.hostMasks

/-- Nothing but the listed registers and pc has changed. -/
abbrev ChangesOnlyRegs (written : List Reg) (s t : State) : Prop :=
  KeepsRegsBut written s t ∧ t.i = s.i ∧ KeepsMemory s t ∧ KeepsDisplay s t ∧ KeepsStack s t ∧ KeepsTimers s t ∧
    KeepsControl s t ∧ t.draws = s.draws

/-- Nothing but I, the listed registers and pc has changed. -/
abbrev ChangesOnlyIndexAndRegs (written : List Reg) (s t : State) : Prop :=
  KeepsRegsBut written s t ∧ KeepsMemory s t ∧ KeepsDisplay s t ∧ KeepsStack s t ∧ KeepsTimers s t ∧
    KeepsControl s t ∧ t.draws = s.draws

end Sys2Proof.Safety
end

