-- ==== Sys2Proof/Certificates/Slice0/Obligations.lean ====
section
/-! DEFINITION. The statements about the machine. Each docstring names the rule of spec/ it formalises. `s.pc` is the
address `a` of the instruction; registers, bytes, cells and stack slots are read with getV, readByte, cell and stackAt. -/

open Sys2Proof Sys2Proof.Machine Sys2Proof.Safety

/-! Encoding and decoding. The numbers of the opcode map are the spec's from general knowledge (R74, D1; log 6) and strict
decoding is its decision D2 (log 7). -/

/-- No bit of an encoding is dropped: decoding an instruction's word, or its two bytes followed by any others, gives it
back with every operand (R71, R74, R52). -/
def Obligations.DecodeOfEncode : Prop :=
  ∀ i : Instr, decode (encode i) = .ok i ∧ ∀ rest, decodeBytes (encodeBytes i ++ rest) = .ok (i, rest)

/-- Each word has one meaning: a word that decodes to an instruction is that instruction's encoding (R74, R75). -/
def Obligations.DecodedWordIsItsEncoding : Prop := ∀ (w : Word) (i : Instr), decode w = .ok i → encode i = w

/-- R75: decode gives the unique row with `w & mask = match`, and rejects a word, under its name, exactly when no row
matches. -/
def Obligations.DecodeSelectsTheOneRow : Prop :=
  ∀ w : Word,
    (∀ i, decode w = .ok i → selects w i ∧ ∀ j, selects w j → rowOf j = rowOf i) ∧
    (∀ r, decode w = .error r → r = .unknown w ∧ ∀ j, ¬ selects w j)

/-- R82's worked encodings and the byte order of the first of them. -/
def Obligations.WorkedEncodings : Prop :=
  encode (.set 3 0x2A) = 0x632A ∧ encodeBytes (.set 3 0x2A) = [0x63, 0x2A] ∧
  encode (.draw 1 2 5) = 0xD125 ∧ encode (.add 0 1) = 0x8014 ∧ encode (.store 0xF) = 0xFF55 ∧
  encode (.jp 0x204) = 0x1204 ∧ encode (.skp 0xA) = 0xEA9E ∧
  decode 0x8AF0 = .ok (.mov 0xA 0xF) ∧ decode 0x5AB1 = .error (.unknown 0x5AB1)

/-! The step. -/

/-- A step runs the decoded instruction: when the two bytes at pc, high byte first, decode to i, the step is exec of i in
the state the tick's start leaves (KEYS latched at a batch boundary), and then the batch position advances, or the
tick ends (R90, R95; log 4). -/
def Obligations.StepRunsDecodedInstruction : Prop :=
  ∀ (s t : State) (i : Instr), s.fault = none → s.pc.toNat ≤ 0x0FFE →
    decode (wordOfBytes (s.readByte s.pc.toNat) (s.readByte (s.pc.toNat + 1))) = .ok i →
    exec i s.beginStep = .next t → step s = .next t.endStep

/-- R94: a word that decodes to no instruction is a no-op: only pc moves, to a + 2, the step counts toward the budget, and the
diagnostic event names the address and the word. -/
def Obligations.UnknownWordIsNoOp : Prop :=
  ∀ (s : State) (w : Word), s.fault = none → s.pc.toNat ≤ 0x0FFE →
    w = wordOfBytes (s.readByte s.pc.toNat) (s.readByte (s.pc.toNat + 1)) → (∀ i, decode w ≠ .ok i) →
    step s = .next (State.endStep { s.beginStep with pc := s.pc + 2 }) ∧ s.diag = some (.unknownOpcode s.pc w)

/-- The diagnostic event (R94, R99) is emitted exactly when the step executes an UNKNOWN word, with its address and the
word. -/
def Obligations.DiagReportsUnknownWords : Prop :=
  ∀ (s : State) (a w : Word), s.diag = some (.unknownOpcode a w) ↔
    s.fault = none ∧ s.pc.toNat ≤ 0x0FFE ∧ a = s.pc ∧
      w = wordOfBytes (s.readByte s.pc.toNat) (s.readByte (s.pc.toNat + 1)) ∧ ∀ i, decode w ≠ .ok i

/-- R101: Step and Tick are total: each answers a next state from every state; every word decodes or is a no-op, and every
instruction completes or takes its fault. -/
def Obligations.StepAndTickAreTotal : Prop :=
  ∀ s : State, (∃ t, step s = .next t) ∧ ∀ k, ∃ t, tick k s = .next t

/-! Faults. The fault policy is the spec's decisions D7, D9, D11, D26 (log 5). -/

/-- Fetching at pc >= 0x0FFF records FetchOutOfBounds(pc) and changes nothing else (R54, R91, R201, R202; decisions D9, D11;
log 5). -/
def Obligations.FetchBeyondMemoryFaults : Prop :=
  ∀ s : State, s.fault = none → 0x0FFF ≤ s.pc.toNat →
    step s = .next { s.beginStep with fault := some (.fetchOutOfBounds s.pc) }

/-- R203: the faulted state is absorbing, for Step, Tick and the diagnostic channel (decision D11; log 5). -/
def Obligations.FaultedStateIsAbsorbing : Prop :=
  ∀ s : State, s.fault ≠ none → step s = .next s ∧ (∀ k, tick k s = .next s) ∧ s.diag = none

/-- R202: faults are precise. A step that faults leaves everything as the tick's start left it, pc = a included, but for the
record (decision D11; log 5). -/
def Obligations.FaultsArePrecise : Prop :=
  ∀ (s t : State) (f : Fault), s.fault = none → step s = .next t → t.fault = some f →
    t = { s.beginStep with fault := some f }

/-- R201, R204: the only conditions on which an instruction faults, and it faults on each of them (decisions D7, D9, D26;
log 5). `rows` is DRAW's clipped row count, min(N, 32 − V[Y] mod 32). -/
def Obligations.FaultsExactlyWhenStated : Prop :=
  ∀ (i : Instr) (s t : State), s.fault = none → exec i s = .next t →
    (t.fault ≠ none ↔
      match i with
      | .call _ => s.sp = s.cfg.stackDepth
      | .ret => s.sp = 0
      | .bcd _ => 4095 < s.i.toNat + 2
      | .store x | .load x => 4095 < s.i.toNat + x.toNat
      | .draw _ y n =>
        0 < min n.toNat (32 - (s.getV y).toNat % 32) ∧
          4095 < s.i.toNat + min n.toNat (32 - (s.getV y).toNat % 32) - 1
      | _ => False)

/-- The records of R201: what CALL on a full stack, RET on an empty one, and BCD, STORE, LOAD and DRAW with a footprint past
address 4095 leave, which is the state before the instruction with the record set: cause, a, and the smallest offending
address max(I, 4096) (decisions D7, D9, D11, D26; log 5). -/
def Obligations.FaultRecords : Prop :=
  ∀ s : State,
    (∀ nnn, s.sp = s.cfg.stackDepth → exec (.call nnn) s = .next { s with fault := some (.stackOverflow s.pc) }) ∧
    (s.sp = 0 → exec .ret s = .next { s with fault := some (.stackUnderflow s.pc) }) ∧
    (∀ x, 4095 < s.i.toNat + 2 →
      exec (.bcd x) s = .next { s with fault := some (.dataOutOfBounds s.pc (max s.i.toNat 4096)) }) ∧
    (∀ x : Reg, 4095 < s.i.toNat + x.toNat →
      exec (.store x) s = .next { s with fault := some (.dataOutOfBounds s.pc (max s.i.toNat 4096)) } ∧
      exec (.load x) s = .next { s with fault := some (.dataOutOfBounds s.pc (max s.i.toNat 4096)) }) ∧
    (∀ x y n, 0 < min n.toNat (32 - (s.getV y).toNat % 32) →
      4095 < s.i.toNat + min n.toNat (32 - (s.getV y).toNat % 32) - 1 →
      exec (.draw x y n) s = .next { s with fault := some (.dataOutOfBounds s.pc (max s.i.toNat 4096)) })

/-! Register and ALU instructions: each completes from every state. -/

/-- R130: SET Vx, nn writes NN to V[X], whatever X; VF changes only if X names it. -/
def Obligations.SetWritesImmediate : Prop :=
  ∀ (x : Reg) (nn : Byte) (s : State), ∃ t, exec (.set x nn) s = .next t ∧
    t.getV x = nn ∧ t.pc = s.pc + 2 ∧ ChangesOnlyRegs [x] s t

/-- R131: ADDI Vx, nn adds mod 256 and writes no flag. -/
def Obligations.AddiWrapsSilently : Prop :=
  ∀ (x : Reg) (nn : Byte) (s : State), ∃ t, exec (.addi x nn) s = .next t ∧
    (t.getV x).toNat = ((s.getV x).toNat + nn.toNat) % 256 ∧ t.pc = s.pc + 2 ∧ ChangesOnlyRegs [x] s t

/-- R132: MOV Vx, Vy copies V[Y]. -/
def Obligations.MovCopiesRegister : Prop :=
  ∀ (x y : Reg) (s : State), ∃ t, exec (.mov x y) s = .next t ∧
    t.getV x = s.getV y ∧ t.pc = s.pc + 2 ∧ ChangesOnlyRegs [x] s t

/-- R133, R134, R135: OR, AND and XOR combine bit by bit and leave VF alone unless X names it. -/
def Obligations.LogicOperationsAreBitwise : Prop :=
  ∀ (x y : Reg) (s : State),
    (∃ t, exec (.or x y) s = .next t ∧
      (∀ k, k < 8 → (t.getV x).getLsbD k = ((s.getV x).getLsbD k || (s.getV y).getLsbD k)) ∧
      t.pc = s.pc + 2 ∧ ChangesOnlyRegs [x] s t) ∧
    (∃ t, exec (.and x y) s = .next t ∧
      (∀ k, k < 8 → (t.getV x).getLsbD k = ((s.getV x).getLsbD k && (s.getV y).getLsbD k)) ∧
      t.pc = s.pc + 2 ∧ ChangesOnlyRegs [x] s t) ∧
    (∃ t, exec (.xor x y) s = .next t ∧
      (∀ k, k < 8 → (t.getV x).getLsbD k = ((s.getV x).getLsbD k != (s.getV y).getLsbD k)) ∧
      t.pc = s.pc + 2 ∧ ChangesOnlyRegs [x] s t)

/-- R136, R142: ADD Vx, Vy. VF is 1 iff the sum exceeds 255; V[X] is the sum mod 256, and where X names VF the flag is what
VF holds (the spec's decision D12; log 8). -/
def Obligations.AddSetsCarry : Prop :=
  ∀ (x y : Reg) (s : State), ∃ t, exec (.add x y) s = .next t ∧
    (x ≠ 0xF → (t.getV x).toNat = ((s.getV x).toNat + (s.getV y).toNat) % 256) ∧
    t.getV 0xF = (if 255 < (s.getV x).toNat + (s.getV y).toNat then 1 else 0) ∧
    t.pc = s.pc + 2 ∧ ChangesOnlyRegs [x, 0xF] s t

/-- R137, R139, R142: SUB gives X − Y and RSUB gives Y − X, mod 256, with VF = 1 iff there is no borrow; where X names VF the
flag is what VF holds (the spec's decision D12; log 8). -/
def Obligations.SubtractionsSetNoBorrow : Prop :=
  ∀ (x y : Reg) (s : State),
    (∃ t, exec (.sub x y) s = .next t ∧
      (x ≠ 0xF → (t.getV x).toNat = ((s.getV x).toNat + 256 - (s.getV y).toNat) % 256) ∧
      t.getV 0xF = (if (s.getV y).toNat ≤ (s.getV x).toNat then 1 else 0) ∧
      t.pc = s.pc + 2 ∧ ChangesOnlyRegs [x, 0xF] s t) ∧
    (∃ t, exec (.rsub x y) s = .next t ∧
      (x ≠ 0xF → (t.getV x).toNat = ((s.getV y).toNat + 256 - (s.getV x).toNat) % 256) ∧
      t.getV 0xF = (if (s.getV x).toNat ≤ (s.getV y).toNat then 1 else 0) ∧
      t.pc = s.pc + 2 ∧ ChangesOnlyRegs [x, 0xF] s t)

/-- R138, R140, R142: SHR and SHL shift V[X] under Q_SHIFT_VX and V[Y] without it, by one bit, and VF receives the bit
shifted out; where X names VF the flag is what VF holds (the spec's decision D12; log 8). -/
def Obligations.ShiftsKeepTheBitShiftedOut : Prop :=
  ∀ (x y : Reg) (s : State) (src : Byte), src = (if s.cfg.qShiftVx then s.getV x else s.getV y) →
    (∃ t, exec (.shr x y) s = .next t ∧
      (x ≠ 0xF → (t.getV x).toNat = src.toNat / 2) ∧ (t.getV 0xF).toNat = src.toNat % 2 ∧
      t.pc = s.pc + 2 ∧ ChangesOnlyRegs [x, 0xF] s t) ∧
    (∃ t, exec (.shl x y) s = .next t ∧
      (x ≠ 0xF → (t.getV x).toNat = src.toNat * 2 % 256) ∧ (t.getV 0xF).toNat = src.toNat / 128 ∧
      t.pc = s.pc + 2 ∧ ChangesOnlyRegs [x, 0xF] s t)

/-- R141: RND Vx, nn writes its draw AND NN, whatever byte was drawn (a free value; log 2), and consumes one draw. -/
def Obligations.RndMasksItsDraw : Prop :=
  ∀ (x : Reg) (nn : Byte) (s : State), ∃ t, exec (.rnd x nn) s = .next t ∧
    (∀ k, k < 8 → (t.getV x).getLsbD k = ((Config.freeRandom s.draws).getLsbD k && nn.getLsbD k)) ∧
    (t.getV x).toNat ≤ nn.toNat ∧ t.pc = s.pc + 2 ∧ t.draws = s.draws + 1 ∧
    KeepsRegsBut [x] s t ∧ t.i = s.i ∧ KeepsMemory s t ∧ KeepsDisplay s t ∧ KeepsStack s t ∧ KeepsTimers s t ∧
    KeepsControl s t

/-- R101, R212: randomness enters only through RND: every other instruction answers the same whatever draws are to come. -/
def Obligations.RandomnessOnlyThroughRnd : Prop :=
  ∀ (i : Instr) (s t : State) (n : Nat), (∀ x nn, i ≠ .rnd x nn) → exec i s = .next t →
    exec i { s with draws := n } = .next { t with draws := n }

/-! Control transfer. -/

/-- R111: JP nnn writes NNN to pc, odd or even, in or out of the program area, and nothing else. -/
def Obligations.JpWritesPc : Prop :=
  ∀ (nnn : Addr12) (s : State), ∃ t, exec (.jp nnn) s = .next t ∧ t.pc.toNat = nnn.toNat ∧ ChangesOnlyRegs [] s t

/-- R112: CALL nnn with a free slot pushes a + 2 and goes to NNN; the slots below are as before. -/
def Obligations.CallPushesReturnAddress : Prop :=
  ∀ (nnn : Addr12) (s : State), StackWf s → s.sp < s.cfg.stackDepth → ∃ t, exec (.call nnn) s = .next t ∧
    t.pc.toNat = nnn.toNat ∧ t.sp = s.sp + 1 ∧ t.stackAt s.sp = s.pc + 2 ∧
    (∀ j, j ≠ s.sp → t.stackAt j = s.stackAt j) ∧ t.stack.length = s.stack.length ∧
    KeepsRegsBut [] s t ∧ t.i = s.i ∧ KeepsMemory s t ∧ KeepsDisplay s t ∧ KeepsTimers s t ∧ KeepsControl s t ∧
    t.draws = s.draws

/-- R110: RET on a stack in use takes pc from the most recent entry; the popped slot keeps its content (R26, decision D8;
log 14). -/
def Obligations.RetPopsReturnAddress : Prop :=
  ∀ s : State, s.sp ≠ 0 → ∃ t, exec .ret s = .next t ∧
    t.pc = s.stackAt (s.sp - 1) ∧ t.sp + 1 = s.sp ∧ t.stack = s.stack ∧
    KeepsRegsBut [] s t ∧ t.i = s.i ∧ KeepsMemory s t ∧ KeepsDisplay s t ∧ KeepsTimers s t ∧ KeepsControl s t ∧
    t.draws = s.draws

/-- CALL and RET match (R110, R112): after a CALL, a RET from anywhere, by code that has left the stack as the CALL left it,
resumes after the CALL with the stack pointer as before it. -/
def Obligations.CallThenRetResumes : Prop :=
  ∀ (nnn : Addr12) (s t u : State), StackWf s → s.sp < s.cfg.stackDepth → exec (.call nnn) s = .next t →
    u.stack = t.stack → u.sp = t.sp →
    ∃ v, exec .ret u = .next v ∧ v.pc = s.pc + 2 ∧ v.sp = s.sp ∧ ∀ j, j < s.sp → v.stackAt j = s.stackAt j

/-- R113 to R116, R118: SKEQ, SKNE, SKREQ and SKRNE compare and skip, to a + 4, or fall through to a + 2, and write
nothing else. -/
def Obligations.SkipsCompareOperands : Prop :=
  ∀ (x y : Reg) (nn : Byte) (s : State),
    (∃ t, exec (.skeq x nn) s = .next t ∧
      t.pc = (if (s.getV x).toNat = nn.toNat then s.pc + 4 else s.pc + 2) ∧ ChangesOnlyRegs [] s t) ∧
    (∃ t, exec (.skne x nn) s = .next t ∧
      t.pc = (if (s.getV x).toNat = nn.toNat then s.pc + 2 else s.pc + 4) ∧ ChangesOnlyRegs [] s t) ∧
    (∃ t, exec (.skreq x y) s = .next t ∧
      t.pc = (if (s.getV x).toNat = (s.getV y).toNat then s.pc + 4 else s.pc + 2) ∧ ChangesOnlyRegs [] s t) ∧
    (∃ t, exec (.skrne x y) s = .next t ∧
      t.pc = (if (s.getV x).toNat = (s.getV y).toNat then s.pc + 2 else s.pc + 4) ∧ ChangesOnlyRegs [] s t)

/-- R117: JPOFF nnn adds V[0], or under Q_JUMP_VX the register NNN[11:8] names, to the whole NNN; the sum is not reduced to
12 bits. -/
def Obligations.JpoffAddsRegister : Prop :=
  ∀ (nnn : Addr12) (s : State), ∃ t, exec (.jpoff nnn) s = .next t ∧
    t.pc.toNat = nnn.toNat +
      (if s.cfg.qJumpVx then s.getV (BitVec.ofNat 4 (nnn.toNat / 256)) else s.getV 0).toNat ∧
    ChangesOnlyRegs [] s t

/-- R24: pc after a step that fetched w at a: the table of the rule, an unknown word's and a faulting step's rows included
(the faulting rows rest on the spec's decision D11; log 5). KEYS is the mask the step sees. -/
def Obligations.PcAfterEveryStep : Prop :=
  ∀ (s t : State) (w : Word), s.fault = none → s.fetch = some w → step s = .next t →
    (t.fault ≠ none → t.pc = s.pc) ∧
    (t.fault = none → t.pc =
      match decode w with
      | .ok (.jp nnn) | .ok (.call nnn) => BitVec.ofNat 16 nnn.toNat
      | .ok .ret => s.stackAt (s.sp - 1)
      | .ok (.jpoff nnn) =>
        BitVec.ofNat 16 (nnn.toNat +
          (if s.cfg.qJumpVx then s.getV (BitVec.ofNat 4 (nnn.toNat / 256)) else s.getV 0).toNat)
      | .ok (.skeq x nn) => if s.getV x = nn then s.pc + 4 else s.pc + 2
      | .ok (.skne x nn) => if s.getV x = nn then s.pc + 2 else s.pc + 4
      | .ok (.skreq x y) => if s.getV x = s.getV y then s.pc + 4 else s.pc + 2
      | .ok (.skrne x y) => if s.getV x = s.getV y then s.pc + 2 else s.pc + 4
      | .ok (.skp x) => if keybit t.keys (s.getV x) then s.pc + 4 else s.pc + 2
      | .ok (.sknp x) => if keybit t.keys (s.getV x) then s.pc + 2 else s.pc + 4
      | .ok (.waitk _) => if t.keys = 0 then s.pc else s.pc + 2
      | _ => s.pc + 2)

/-! Index and memory instructions. -/

/-- R150: SETI nnn loads NNN, zero-extended: bits 15..12 become 0. -/
def Obligations.SetiLoadsAddress : Prop :=
  ∀ (nnn : Addr12) (s : State), ∃ t, exec (.seti nnn) s = .next t ∧
    t.i.toNat = nnn.toNat ∧ t.pc = s.pc + 2 ∧ ChangesOnlyIndexAndRegs [] s t

/-- R151: ADDIDX Vx adds V[X] to I mod 2^16; VF is set to 1 iff Q_INDEX_OVF is on and the new I, after the wrap, exceeds
0x0FFF (the spec's decision D14; log 10), and is not written otherwise. -/
def Obligations.AddidxAddsToIndex : Prop :=
  ∀ (x : Reg) (s : State), ∃ t, exec (.addidx x) s = .next t ∧
    t.i.toNat = (s.i.toNat + (s.getV x).toNat) % 65536 ∧
    t.getV 0xF = (if s.cfg.qIndexOvf ∧ 0x0FFF < (s.i.toNat + (s.getV x).toNat) % 65536 then 1 else s.getV 0xF) ∧
    t.pc = s.pc + 2 ∧ ChangesOnlyIndexAndRegs [0xF] s t

/-- R152: FONT Vx leaves in I the address of the glyph the low 4 bits of V[X] select, below 0x200 under every configuration of
R6. -/
def Obligations.FontComputesGlyphAddress : Prop :=
  ∀ (x : Reg) (s : State), s.cfg.fontBase ≤ 0x1B0 → ∃ t, exec (.font x) s = .next t ∧
    t.i.toNat = (s.getV x).toNat % 16 * 5 + s.cfg.fontBase ∧ t.i.toNat ≤ 0x1FB ∧
    t.pc = s.pc + 2 ∧ ChangesOnlyIndexAndRegs [] s t

/-- R153: BCD Vx with its three addresses inside memory writes hundreds, tens and units to I, I + 1 and I + 2; every other
byte, every register and I are as before. -/
def Obligations.BcdWritesThreeDigits : Prop :=
  ∀ (x : Reg) (s : State), MemoryWf s → s.i.toNat + 2 ≤ 4095 → ∃ t, exec (.bcd x) s = .next t ∧
    (t.readByte s.i.toNat).toNat = (s.getV x).toNat / 100 ∧
    (t.readByte (s.i.toNat + 1)).toNat = (s.getV x).toNat / 10 % 10 ∧
    (t.readByte (s.i.toNat + 2)).toNat = (s.getV x).toNat % 10 ∧
    (∀ a, a < s.i.toNat ∨ s.i.toNat + 2 < a → t.readByte a = s.readByte a) ∧
    t.pc = s.pc + 2 ∧ KeepsRegsBut [] s t ∧ t.i = s.i ∧ KeepsDisplay s t ∧ KeepsStack s t ∧ KeepsTimers s t ∧
    KeepsControl s t ∧ t.draws = s.draws

/-- R154: STORE Vx inside memory copies V0..VX to I, I + 1, ..., I + X; every other byte and every register are as before, and I
advances by X + 1 mod 2^16 unless Q_MEM_KEEP_I. -/
def Obligations.StoreCopiesRegisters : Prop :=
  ∀ (x : Reg) (s : State), MemoryWf s → s.i.toNat + x.toNat ≤ 4095 → ∃ t, exec (.store x) s = .next t ∧
    (∀ k : Reg, k.toNat ≤ x.toNat → t.readByte (s.i.toNat + k.toNat) = s.getV k) ∧
    (∀ a, a < s.i.toNat ∨ s.i.toNat + x.toNat < a → t.readByte a = s.readByte a) ∧
    t.i.toNat = (if s.cfg.qMemKeepI then s.i.toNat else (s.i.toNat + x.toNat + 1) % 65536) ∧
    t.pc = s.pc + 2 ∧ KeepsRegsBut [] s t ∧ KeepsDisplay s t ∧ KeepsStack s t ∧ KeepsTimers s t ∧
    KeepsControl s t ∧ t.draws = s.draws

/-- R155: LOAD Vx inside memory copies I, I + 1, ..., I + X to V0..VX; the registers above VX and all of memory are as before, and I
advances by X + 1 mod 2^16 unless Q_MEM_KEEP_I. -/
def Obligations.LoadCopiesMemory : Prop :=
  ∀ (x : Reg) (s : State), s.i.toNat + x.toNat ≤ 4095 → ∃ t, exec (.load x) s = .next t ∧
    (∀ k : Reg, k.toNat ≤ x.toNat → t.getV k = s.readByte (s.i.toNat + k.toNat)) ∧
    (∀ k : Reg, x.toNat < k.toNat → t.getV k = s.getV k) ∧
    t.i.toNat = (if s.cfg.qMemKeepI then s.i.toNat else (s.i.toNat + x.toNat + 1) % 65536) ∧
    t.pc = s.pc + 2 ∧ KeepsMemory s t ∧ KeepsDisplay s t ∧ KeepsStack s t ∧ KeepsTimers s t ∧
    KeepsControl s t ∧ t.draws = s.draws

/-- "inverse of store-registers" (R155): what STORE Vx wrote, a LOAD Vx from the same address brings back into the registers,
whatever they held meanwhile, under either setting of Q_MEM_KEEP_I. -/
def Obligations.LoadInvertsStore : Prop :=
  ∀ (x : Reg) (s t u : State), MemoryWf s → s.i.toNat + x.toNat ≤ 4095 → exec (.store x) s = .next t →
    u.cfg = t.cfg → u.mem = t.mem → u.i = s.i →
    ∃ v, exec (.load x) u = .next v ∧ (∀ k : Reg, k.toNat ≤ x.toNat → v.getV k = s.getV k) ∧ v.i = t.i

/-- R63: a byte STORE wrote is seen by the very next fetch: where the stored range covers a + 2 and a + 3, the word fetched
next is the pair of registers stored there (decision D28; log 15). -/
def Obligations.StoreIsSeenByNextFetch : Prop :=
  ∀ (x : Reg) (s t : State), MemoryWf s → s.i.toNat + x.toNat ≤ 4095 → exec (.store x) s = .next t →
    s.i.toNat ≤ (s.pc + 2).toNat → (s.pc + 2).toNat + 1 ≤ s.i.toNat + x.toNat →
    t.fetch = some (s.getV (BitVec.ofNat 4 ((s.pc + 2).toNat - s.i.toNat)) ++
      s.getV (BitVec.ofNat 4 ((s.pc + 2).toNat + 1 - s.i.toNat)))

/-! The display. -/

/-- R170: CLS sets all 2048 cells to 0 and writes no register. -/
def Obligations.ClsClearsDisplay : Prop :=
  ∀ s : State, ∃ t, exec .cls s = .next t ∧ (∀ y x, t.cell y x = false) ∧ t.pc = s.pc + 2 ∧
    KeepsRegsBut [] s t ∧ t.i = s.i ∧ KeepsMemory s t ∧ KeepsStack s t ∧ KeepsTimers s t ∧ KeepsControl s t ∧
    t.draws = s.draws

/-- R172: the closed form of DRAW, for every origin register (read before VF is reset, the spec's decision D13; log 9) and row
count, when the rows drawn lie in memory: each cell of the drawn rectangle is XORed with its sprite bit, every other cell is as
before, and VF is 1 iff some lit cell met a 1. -/
def Obligations.DrawXorsSprite : Prop :=
  ∀ (x y : Reg) (n : Nibble) (s : State) (x0 y0 rows : Nat),
    x0 = (s.getV x).toNat % 64 → y0 = (s.getV y).toNat % 32 → rows = min n.toNat (32 - y0) →
    (rows = 0 ∨ s.i.toNat + rows - 1 ≤ 4095) →
    ∃ t, exec (.draw x y n) s = .next t ∧
      (∀ r c, r < 32 → c < 64 → t.cell r c =
        (s.cell r c != (decide (y0 ≤ r ∧ r < y0 + rows ∧ x0 ≤ c ∧ c ≤ min (x0 + 7) 63) &&
          (s.readByte (s.i.toNat + (r - y0))).getLsbD (7 - (c - x0))))) ∧
      (t.getV 0xF = 0 ∨ t.getV 0xF = 1) ∧
      (t.getV 0xF = 1 ↔ ∃ r c, y0 ≤ r ∧ r < y0 + rows ∧ x0 ≤ c ∧ c ≤ min (x0 + 7) 63 ∧ s.cell r c = true ∧
        (s.readByte (s.i.toNat + (r - y0))).getLsbD (7 - (c - x0)) = true) ∧
      t.pc = s.pc + 2 ∧ KeepsRegsBut [0xF] s t ∧ t.i = s.i ∧ KeepsMemory s t ∧ KeepsStack s t ∧ KeepsTimers s t ∧
      KeepsControl s t ∧ t.draws = s.draws

/-- R172's consequence: the same sprite drawn again at the same origin restores the display, and the second draw collides iff
the first one lit a cell. The origin registers are not VF, which the first draw overwrites. -/
def Obligations.DrawTwiceRestoresDisplay : Prop :=
  ∀ (x y : Reg) (n : Nibble) (s t u : State), x ≠ 0xF → y ≠ 0xF → s.fault = none →
    exec (.draw x y n) s = .next t → t.fault = none → exec (.draw x y n) t = .next u →
    u.disp = s.disp ∧ (u.getV 0xF = 1 ↔ ∃ r c, t.cell r c = true ∧ s.cell r c = false)

/-! Timers and keys. -/

/-- R180, R181, R186: SKP and SKNP test bit V[X] of KEYS; a register value of 16 or more names a key that is never pressed
(the spec's decision D15; log 11). -/
def Obligations.KeySkipsTestTheMask : Prop :=
  ∀ (x : Reg) (s : State) (pressed : Bool),
    pressed = (decide ((s.getV x).toNat ≤ 15) && s.keys.getLsbD (s.getV x).toNat) →
    (∃ t, exec (.skp x) s = .next t ∧ t.pc = (if pressed then s.pc + 4 else s.pc + 2) ∧ ChangesOnlyRegs [] s t) ∧
    (∃ t, exec (.sknp x) s = .next t ∧ t.pc = (if pressed then s.pc + 2 else s.pc + 4) ∧ ChangesOnlyRegs [] s t)

/-- R182, R184, R185: GETDT, SETDT and SETST copy a byte between a register and a timer. -/
def Obligations.TimerTransfersCopy : Prop :=
  ∀ (x : Reg) (s : State),
    (∃ t, exec (.getdt x) s = .next t ∧ t.getV x = s.dt ∧ t.pc = s.pc + 2 ∧ ChangesOnlyRegs [x] s t) ∧
    (∃ t, exec (.setdt x) s = .next t ∧ t.dt = s.getV x ∧ t.st = s.st ∧ t.pc = s.pc + 2 ∧ KeepsRegsBut [] s t ∧
      t.i = s.i ∧ KeepsMemory s t ∧ KeepsDisplay s t ∧ KeepsStack s t ∧ KeepsControl s t ∧ t.draws = s.draws) ∧
    (∃ t, exec (.setst x) s = .next t ∧ t.st = s.getV x ∧ t.dt = s.dt ∧ t.pc = s.pc + 2 ∧ KeepsRegsBut [] s t ∧
      t.i = s.i ∧ KeepsMemory s t ∧ KeepsDisplay s t ∧ KeepsStack s t ∧ KeepsControl s t ∧ t.draws = s.draws)

/-- R183: WAITK Vx with no key held changes nothing, pc included; with keys held it stores the lowest-numbered one's index and
goes on. -/
def Obligations.WaitkTakesLowestKey : Prop :=
  ∀ (x : Reg) (s : State),
    (s.keys = 0 → ∃ t, exec (.waitk x) s = .next t ∧ t.pc = s.pc ∧ ChangesOnlyRegs [] s t) ∧
    (s.keys ≠ 0 → ∃ t, exec (.waitk x) s = .next t ∧
      (t.getV x).toNat ≤ 15 ∧ s.keys.getLsbD (t.getV x).toNat = true ∧
      (∀ k, k < (t.getV x).toNat → s.keys.getLsbD k = false) ∧
      t.pc = s.pc + 2 ∧ ChangesOnlyRegs [x] s t)

/-! The tick. -/

/-- R96: the step at a batch boundary latches the host's next mask (the free value where the model's queue is empty; log 3),
and in every other step KEYS is constant, whatever instruction runs (decision D16; log 12). -/
def Obligations.KeysChangeOnlyAtTickStart : Prop :=
  ∀ s t : State, s.fault = none → step s = .next t →
    t.keys = (if s.tickPos = 0 then s.hostMasks.headD (Config.freeKeyMask s.ticks) else s.keys)

/-- R97: after a Step that does not fault, an UNKNOWN word's included, each timer of the state it leaves is down by 1 if it was
not 0 when the Step was the last of the budget, and untouched otherwise; the position in the batch advances or returns to
the boundary (log 4). -/
def Obligations.TimersCountAtTickEnd : Prop :=
  ∀ s u : State, s.fault = none → s.tickPos < s.cfg.ipf → stepInstr s.beginStep = .next u → u.fault = none →
    ∃ t, step s = .next t ∧
      (s.tickPos + 1 = s.cfg.ipf →
        t.dt.toNat = u.dt.toNat - 1 ∧ t.st.toNat = u.st.toNat - 1 ∧ t.tickPos = 0) ∧
      (s.tickPos + 1 ≠ s.cfg.ipf → t.dt = u.dt ∧ t.st = u.st ∧ t.tickPos = s.tickPos + 1)

/-- R95 refined: from a batch boundary, IPF steps of the machine with the mask k first in the queue are Tick(k): the same
state, but for the model's own bookkeeping, and at the boundary again unless a fault ended the tick (log 4). -/
def Obligations.BudgetOfStepsIsTick : Prop :=
  ∀ (k : Word) (ms : List Word) (s t : State), s.tickPos = 0 → 1 ≤ s.cfg.ipf → s.fault = none → tick k s = .next t →
    ∃ p, runSteps s.cfg.ipf { s with hostMasks := k :: ms } =
        .next { t with hostMasks := ms, ticks := s.ticks + 1, tickPos := p } ∧
      (t.fault = none → p = 0)

/-- R183, R238: a WAITK that finds no key held occupies the whole tick: Tick(0) leaves everything as it was but KEYS and the
timers' count. -/
def Obligations.WaitkOccupiesTheTick : Prop :=
  ∀ (x : Reg) (s : State), s.fault = none → s.fetch.map decode = some (.ok (.waitk x)) →
    tick 0 s = .next { s with
      keys := 0, dt := BitVec.ofNat 8 (s.dt.toNat - 1), st := BitVec.ofNat 8 (s.st.toNat - 1) }

/-- R240: at a jump to itself every tick leaves all state but KEYS and the timers unchanged. -/
def Obligations.SelfJumpIsStable : Prop :=
  ∀ (k : Word) (nnn : Addr12) (s : State), s.fault = none → nnn.toNat = s.pc.toNat →
    s.fetch.map decode = some (.ok (.jp nnn)) →
    tick k s = .next { s with
      keys := k, dt := BitVec.ofNat 8 (s.dt.toNat - 1), st := BitVec.ofNat 8 (s.st.toNat - 1) }

/-! Rules of the whole machine. -/

/-- R20's table, the column "written by": an instruction that changes an element is one of those the table names (V under
ADDIDX only with Q_INDEX_OVF), and none writes KEYS or the configuration. -/
def Obligations.ElementsHaveTheirWriters : Prop :=
  ∀ (i : Instr) (s t : State), exec i s = .next t →
    (t.v ≠ s.v →
      match i with
      | .set _ _ | .addi _ _ | .mov _ _ | .or _ _ | .and _ _ | .xor _ _ | .add _ _ | .sub _ _ | .shr _ _ | .rsub _ _
      | .shl _ _ | .rnd _ _ | .draw _ _ _ | .getdt _ | .waitk _ | .load _ => True
      | .addidx _ => s.cfg.qIndexOvf = true
      | _ => False) ∧
    (t.i ≠ s.i → (∃ n, i = .seti n) ∨ ∃ x, i = .addidx x ∨ i = .font x ∨ i = .store x ∨ i = .load x) ∧
    (t.stack ≠ s.stack → ∃ n, i = .call n) ∧
    (t.sp ≠ s.sp → (∃ n, i = .call n) ∨ i = .ret) ∧
    (t.dt ≠ s.dt → ∃ x, i = .setdt x) ∧
    (t.st ≠ s.st → ∃ x, i = .setst x) ∧
    (t.disp ≠ s.disp → i = .cls ∨ ∃ x y n, i = .draw x y n) ∧
    (t.mem ≠ s.mem → ∃ x, i = .bcd x ∨ i = .store x) ∧
    t.keys = s.keys ∧ t.cfg = s.cfg

/-- R22: the complete list of VF's side-effect writers. An instruction that changes VF either is one of the seven, and then VF is
0 or 1 after it, or names VF as its destination; for LOAD that is X = 0xF. -/
def Obligations.VfHasItsWriters : Prop :=
  ∀ (i : Instr) (s t : State), exec i s = .next t → t.getV 0xF ≠ s.getV 0xF →
    ((t.getV 0xF = 0 ∨ t.getV 0xF = 1) ∧
      ((∃ x y, i = .add x y ∨ i = .sub x y ∨ i = .rsub x y ∨ i = .shr x y ∨ i = .shl x y) ∨
        (∃ x y n, i = .draw x y n) ∨ (∃ x, i = .addidx x ∧ s.cfg.qIndexOvf = true ∧ t.getV 0xF = 1))) ∨
    (∃ nn, i = .set 0xF nn ∨ i = .addi 0xF nn ∨ i = .rnd 0xF nn) ∨
    (∃ y, i = .mov 0xF y ∨ i = .or 0xF y ∨ i = .and 0xF y ∨ i = .xor 0xF y) ∨
    i = .getdt 0xF ∨ i = .waitk 0xF ∨ i = .load 0xF

/-- R29: the display is mutated only by a step that executes DRAW or CLS. -/
def Obligations.DisplayChangesOnlyByDrawAndCls : Prop :=
  ∀ s t : State, step s = .next t → t.disp ≠ s.disp →
    s.fetch.map decode = some (.ok .cls) ∨ ∃ x y n, s.fetch.map decode = some (.ok (.draw x y n))

/-- R30, R58: a step changes a byte of memory only if it executes BCD, at I to I + 2, or STORE Vx, at I to I + X. -/
def Obligations.MemoryChangesOnlyByBcdAndStore : Prop :=
  ∀ (s t : State) (a : Nat), MemoryWf s → step s = .next t → t.readByte a ≠ s.readByte a →
    (∃ x, s.fetch.map decode = some (.ok (.bcd x)) ∧ s.i.toNat ≤ a ∧ a ≤ s.i.toNat + 2) ∨
    (∃ x : Reg, s.fetch.map decode = some (.ok (.store x)) ∧ s.i.toNat ≤ a ∧ a ≤ s.i.toNat + x.toNat)

/-- R234: no step and no tick changes the configuration. -/
def Obligations.ConfigurationIsImmutable : Prop :=
  ∀ s t : State, (step s = .next t → t.cfg = s.cfg) ∧ ∀ k, tick k s = .next t → t.cfg = s.cfg

/-- The invariant of the machine is kept by every step: memory canonical and inside 0..4095, the stack's slots and pointer within
STACK_DEPTH, every pushed address at most 0x1000, pc at most 0x10FE (R25, R26, R50, R54). -/
def Obligations.StepKeepsTheMachineInvariant : Prop := ∀ s t : State, Inv s → step s = .next t → Inv t

/-- A tick keeps the invariant too, from any point of a batch (R25, R26, R95). -/
def Obligations.TickKeepsTheMachineInvariant : Prop :=
  ∀ (k : Word) (s t : State), Inv s → tick k s = .next t → Inv t

/-- R26: the content of the slots at or above sp is unobservable: states that differ only there step to states that differ only
there (decision D8; log 14). -/
def Obligations.PoppedSlotsAreUnobservable : Prop :=
  ∀ (s t : State) (st : List Word), st.length = s.stack.length → (∀ j, j < s.sp → st.getD j 0 = s.stackAt j) →
    step s = .next t → ∃ st', step { s with stack := st } = .next { t with stack := st' } ∧
      st'.length = t.stack.length ∧ ∀ j, j < t.sp → st'.getD j 0 = t.stackAt j

/-! Reset and the host. -/

/-- R36: reset, for every configuration of R6: every element at the rule's value (0 for I, sp, DT, ST and KEYS by the spec's
decision D17; log 13). -/
def Obligations.ConstructionGivesResetValues : Prop :=
  ∀ c : Config, c.WellFormed →
    (∀ x, (State.construct c).getV x = 0) ∧ (State.construct c).i = 0 ∧ (State.construct c).pc = 0x200 ∧
    (State.construct c).stack.length = c.stackDepth ∧ (∀ j, (State.construct c).stackAt j = 0) ∧
    (State.construct c).sp = 0 ∧ (State.construct c).dt = 0 ∧ (State.construct c).st = 0 ∧
    (∀ y x, (State.construct c).cell y x = false) ∧
    (∀ k (hk : k < 80), (State.construct c).readByte (c.fontBase + k) = c.fontTable[k]) ∧
    (∀ a, a < c.fontBase ∨ c.fontBase + 80 ≤ a → (State.construct c).readByte a = 0) ∧
    (State.construct c).keys = 0 ∧ (State.construct c).fault = none ∧ (State.construct c).cfg = c

/-- The invariant holds after construction with every well-formed configuration (R6, R36). -/
def Obligations.ConstructionMeetsTheInvariant : Prop := ∀ c : Config, c.WellFormed → Inv (State.construct c)

/-- R232: Load copies the image to 0x200 on, drops what passes the memory ceiling, leaves every other byte as before, and changes
nothing but memory, which stays canonical. -/
def Obligations.LoadPlacesTheImage : Prop :=
  ∀ (image : List Byte) (s : State), MemoryWf s →
    (∀ j (hj : j < image.length), j < 3584 → (s.load image).readByte (0x200 + j) = image[j]) ∧
    (∀ a, a < 0x200 ∨ 0x200 + min image.length 3584 ≤ a → (s.load image).readByte a = s.readByte a) ∧
    MemoryWf (s.load image) ∧ s.load image = { s with mem := (s.load image).mem }
end

