-- ==== Sys2Proof/Laws/Encoding.lean ====
section
/-! SUPPORT. The bits and the fields of a word built from its fields (spec/30_encoding.md R71, R72). -/

namespace Sys2Proof

section Bits

theorem getLsbD_opNnn (op : Nibble) (nnn : Addr12) (k : Nat) :
    BitVec.getLsbD (w := 16) (op ++ nnn) k = if k < 12 then nnn.getLsbD k else op.getLsbD (k - 12) :=
  BitVec.getLsbD_append

theorem getLsbD_opXNn (op : Nibble) (x : Reg) (nn : Byte) (k : Nat) :
    BitVec.getLsbD (w := 16) (op ++ x ++ nn) k =
      if k < 8 then nn.getLsbD k else if k < 12 then x.getLsbD (k - 8) else op.getLsbD (k - 12) := by
  rw [show BitVec.getLsbD (w := 16) (op ++ x ++ nn) k = if k < 8 then nn.getLsbD k else (op ++ x).getLsbD (k - 8) from
    BitVec.getLsbD_append, BitVec.getLsbD_append]
  split_ifs <;> first | rfl | omega

theorem getLsbD_opXYN (op : Nibble) (x y : Reg) (n : Nibble) (k : Nat) :
    BitVec.getLsbD (w := 16) (op ++ x ++ y ++ n) k =
      if k < 4 then n.getLsbD k else if k < 8 then y.getLsbD (k - 4)
      else if k < 12 then x.getLsbD (k - 8) else op.getLsbD (k - 12) := by
  rw [show BitVec.getLsbD (w := 16) (op ++ x ++ y ++ n) k =
      if k < 4 then n.getLsbD k else (op ++ x ++ y).getLsbD (k - 4) from BitVec.getLsbD_append,
    BitVec.getLsbD_append, BitVec.getLsbD_append]
  split_ifs <;> first | rfl | omega

end Bits

section Fields

variable (op x y n : BitVec 4) (nn : Byte) (nnn : Addr12)

@[simp] theorem fieldOP_opNnn : fieldOP (op ++ nnn) = op := by
  refine BitVec.eq_of_getLsbD_eq fun k hk => ?_
  rw [fieldOP, BitVec.getLsbD_extractLsb', getLsbD_opNnn]
  simp [hk]
@[simp] theorem fieldNNN_opNnn : fieldNNN (op ++ nnn) = nnn := by
  refine BitVec.eq_of_getLsbD_eq fun k hk => ?_
  rw [fieldNNN, BitVec.getLsbD_extractLsb', getLsbD_opNnn]
  simp [hk]
@[simp] theorem fieldOP_opXNn : fieldOP (op ++ x ++ nn) = op := by
  refine BitVec.eq_of_getLsbD_eq fun k hk => ?_
  rw [fieldOP, BitVec.getLsbD_extractLsb', getLsbD_opXNn]
  simp [hk, show ¬ 12 + k < 8 by omega]
@[simp] theorem fieldX_opXNn : fieldX (op ++ x ++ nn) = x := by
  refine BitVec.eq_of_getLsbD_eq fun k hk => ?_
  rw [fieldX, BitVec.getLsbD_extractLsb', getLsbD_opXNn]
  simp [hk, show 8 + k < 12 by omega]
@[simp] theorem fieldNN_opXNn : fieldNN (op ++ x ++ nn) = nn := by
  refine BitVec.eq_of_getLsbD_eq fun k hk => ?_
  rw [fieldNN, BitVec.getLsbD_extractLsb', getLsbD_opXNn]
  simp [hk]
@[simp] theorem fieldOP_opXYN : fieldOP (op ++ x ++ y ++ n) = op := by
  refine BitVec.eq_of_getLsbD_eq fun k hk => ?_
  rw [fieldOP, BitVec.getLsbD_extractLsb', getLsbD_opXYN]
  simp [hk, show ¬ 12 + k < 8 by omega, show ¬ 12 + k < 4 by omega]
@[simp] theorem fieldX_opXYN : fieldX (op ++ x ++ y ++ n) = x := by
  refine BitVec.eq_of_getLsbD_eq fun k hk => ?_
  rw [fieldX, BitVec.getLsbD_extractLsb', getLsbD_opXYN]
  simp [hk, show 8 + k < 12 by omega, show ¬ 8 + k < 4 by omega]
@[simp] theorem fieldY_opXYN : fieldY (op ++ x ++ y ++ n) = y := by
  refine BitVec.eq_of_getLsbD_eq fun k hk => ?_
  rw [fieldY, BitVec.getLsbD_extractLsb', getLsbD_opXYN]
  simp [hk, show 4 + k < 8 by omega]
@[simp] theorem fieldN_opXYN : fieldN (op ++ x ++ y ++ n) = n := by
  refine BitVec.eq_of_getLsbD_eq fun k hk => ?_
  rw [fieldN, BitVec.getLsbD_extractLsb', getLsbD_opXYN]
  simp [hk]

end Fields

/-- A word is its four nibbles (R7, R71). -/
theorem word_eq_fields (w : Word) : w = fieldOP w ++ fieldX w ++ fieldY w ++ fieldN w := by
  refine BitVec.eq_of_getLsbD_eq fun k hk => ?_
  rw [getLsbD_opXYN]
  simp only [fieldOP, fieldX, fieldY, fieldN, BitVec.getLsbD_extractLsb']
  split_ifs with h₁ h₂ h₃
  · simp [h₁]
  · simp [show k - 4 < 4 by omega, show 4 + (k - 4) = k by omega]
  · simp [show k - 8 < 4 by omega, show 8 + (k - 8) = k by omega]
  · simp [show k - 12 < 4 by omega, show 12 + (k - 12) = k by omega]

end Sys2Proof
end

