-- ==== Sys2Proof/Laws/State.lean ====
section
/-! SUPPORT. One lemma per field per update of the state, so that no later proof unfolds a record update. -/

namespace Sys2Proof.Machine

open Sys2Proof

section SetV
variable (s : State) (x : Reg) (b : Byte)
@[simp] theorem State.setV_cfg : (s.setV x b).cfg = s.cfg := rfl
@[simp] theorem State.setV_v : (s.setV x b).v = s.v.set x.toNat b x.isLt := rfl
@[simp] theorem State.setV_i : (s.setV x b).i = s.i := rfl
@[simp] theorem State.setV_pc : (s.setV x b).pc = s.pc := rfl
@[simp] theorem State.setV_stack : (s.setV x b).stack = s.stack := rfl
@[simp] theorem State.setV_sp : (s.setV x b).sp = s.sp := rfl
@[simp] theorem State.setV_dt : (s.setV x b).dt = s.dt := rfl
@[simp] theorem State.setV_st : (s.setV x b).st = s.st := rfl
@[simp] theorem State.setV_disp : (s.setV x b).disp = s.disp := rfl
@[simp] theorem State.setV_mem : (s.setV x b).mem = s.mem := rfl
@[simp] theorem State.setV_keys : (s.setV x b).keys = s.keys := rfl
@[simp] theorem State.setV_fault : (s.setV x b).fault = s.fault := rfl
@[simp] theorem State.setV_tickPos : (s.setV x b).tickPos = s.tickPos := rfl
@[simp] theorem State.setV_ticks : (s.setV x b).ticks = s.ticks := rfl
@[simp] theorem State.setV_hostMasks : (s.setV x b).hostMasks = s.hostMasks := rfl
@[simp] theorem State.setV_draws : (s.setV x b).draws = s.draws := rfl
end SetV

section SetResultThenFlag
variable (s : State) (x : Reg) (r f : Byte)
@[simp] theorem State.setResultThenFlag_cfg : (s.setResultThenFlag x r f).cfg = s.cfg := rfl
@[simp] theorem State.setResultThenFlag_v : (s.setResultThenFlag x r f).v = ((s.setV x r).setV vf f).v := rfl
@[simp] theorem State.setResultThenFlag_i : (s.setResultThenFlag x r f).i = s.i := rfl
@[simp] theorem State.setResultThenFlag_pc : (s.setResultThenFlag x r f).pc = s.pc := rfl
@[simp] theorem State.setResultThenFlag_stack : (s.setResultThenFlag x r f).stack = s.stack := rfl
@[simp] theorem State.setResultThenFlag_sp : (s.setResultThenFlag x r f).sp = s.sp := rfl
@[simp] theorem State.setResultThenFlag_dt : (s.setResultThenFlag x r f).dt = s.dt := rfl
@[simp] theorem State.setResultThenFlag_st : (s.setResultThenFlag x r f).st = s.st := rfl
@[simp] theorem State.setResultThenFlag_disp : (s.setResultThenFlag x r f).disp = s.disp := rfl
@[simp] theorem State.setResultThenFlag_mem : (s.setResultThenFlag x r f).mem = s.mem := rfl
@[simp] theorem State.setResultThenFlag_keys : (s.setResultThenFlag x r f).keys = s.keys := rfl
@[simp] theorem State.setResultThenFlag_fault : (s.setResultThenFlag x r f).fault = s.fault := rfl
@[simp] theorem State.setResultThenFlag_tickPos : (s.setResultThenFlag x r f).tickPos = s.tickPos := rfl
@[simp] theorem State.setResultThenFlag_ticks : (s.setResultThenFlag x r f).ticks = s.ticks := rfl
@[simp] theorem State.setResultThenFlag_hostMasks : (s.setResultThenFlag x r f).hostMasks = s.hostMasks := rfl
@[simp] theorem State.setResultThenFlag_draws : (s.setResultThenFlag x r f).draws = s.draws := rfl
end SetResultThenFlag

section SetI
variable (s : State) (w : Word)
@[simp] theorem State.setI_cfg : (s.setI w).cfg = s.cfg := rfl
@[simp] theorem State.setI_v : (s.setI w).v = s.v := rfl
@[simp] theorem State.setI_i : (s.setI w).i = w := rfl
@[simp] theorem State.setI_pc : (s.setI w).pc = s.pc := rfl
@[simp] theorem State.setI_stack : (s.setI w).stack = s.stack := rfl
@[simp] theorem State.setI_sp : (s.setI w).sp = s.sp := rfl
@[simp] theorem State.setI_dt : (s.setI w).dt = s.dt := rfl
@[simp] theorem State.setI_st : (s.setI w).st = s.st := rfl
@[simp] theorem State.setI_disp : (s.setI w).disp = s.disp := rfl
@[simp] theorem State.setI_mem : (s.setI w).mem = s.mem := rfl
@[simp] theorem State.setI_keys : (s.setI w).keys = s.keys := rfl
@[simp] theorem State.setI_fault : (s.setI w).fault = s.fault := rfl
@[simp] theorem State.setI_tickPos : (s.setI w).tickPos = s.tickPos := rfl
@[simp] theorem State.setI_ticks : (s.setI w).ticks = s.ticks := rfl
@[simp] theorem State.setI_hostMasks : (s.setI w).hostMasks = s.hostMasks := rfl
@[simp] theorem State.setI_draws : (s.setI w).draws = s.draws := rfl
end SetI

section SetPc
variable (s : State) (w : Word)
@[simp] theorem State.setPc_cfg : (s.setPc w).cfg = s.cfg := rfl
@[simp] theorem State.setPc_v : (s.setPc w).v = s.v := rfl
@[simp] theorem State.setPc_i : (s.setPc w).i = s.i := rfl
@[simp] theorem State.setPc_pc : (s.setPc w).pc = w := rfl
@[simp] theorem State.setPc_stack : (s.setPc w).stack = s.stack := rfl
@[simp] theorem State.setPc_sp : (s.setPc w).sp = s.sp := rfl
@[simp] theorem State.setPc_dt : (s.setPc w).dt = s.dt := rfl
@[simp] theorem State.setPc_st : (s.setPc w).st = s.st := rfl
@[simp] theorem State.setPc_disp : (s.setPc w).disp = s.disp := rfl
@[simp] theorem State.setPc_mem : (s.setPc w).mem = s.mem := rfl
@[simp] theorem State.setPc_keys : (s.setPc w).keys = s.keys := rfl
@[simp] theorem State.setPc_fault : (s.setPc w).fault = s.fault := rfl
@[simp] theorem State.setPc_tickPos : (s.setPc w).tickPos = s.tickPos := rfl
@[simp] theorem State.setPc_ticks : (s.setPc w).ticks = s.ticks := rfl
@[simp] theorem State.setPc_hostMasks : (s.setPc w).hostMasks = s.hostMasks := rfl
@[simp] theorem State.setPc_draws : (s.setPc w).draws = s.draws := rfl
end SetPc

section Advance
variable (s : State)
@[simp] theorem State.advance_cfg : s.advance.cfg = s.cfg := rfl
@[simp] theorem State.advance_v : s.advance.v = s.v := rfl
@[simp] theorem State.advance_i : s.advance.i = s.i := rfl
@[simp] theorem State.advance_pc : s.advance.pc = s.pc + 2 := rfl
@[simp] theorem State.advance_stack : s.advance.stack = s.stack := rfl
@[simp] theorem State.advance_sp : s.advance.sp = s.sp := rfl
@[simp] theorem State.advance_dt : s.advance.dt = s.dt := rfl
@[simp] theorem State.advance_st : s.advance.st = s.st := rfl
@[simp] theorem State.advance_disp : s.advance.disp = s.disp := rfl
@[simp] theorem State.advance_mem : s.advance.mem = s.mem := rfl
@[simp] theorem State.advance_keys : s.advance.keys = s.keys := rfl
@[simp] theorem State.advance_fault : s.advance.fault = s.fault := rfl
@[simp] theorem State.advance_tickPos : s.advance.tickPos = s.tickPos := rfl
@[simp] theorem State.advance_ticks : s.advance.ticks = s.ticks := rfl
@[simp] theorem State.advance_hostMasks : s.advance.hostMasks = s.hostMasks := rfl
@[simp] theorem State.advance_draws : s.advance.draws = s.draws := rfl
end Advance

section SkipIf
variable (s : State) (c : Bool)
@[simp] theorem State.skipIf_cfg : (s.skipIf c).cfg = s.cfg := rfl
@[simp] theorem State.skipIf_v : (s.skipIf c).v = s.v := rfl
@[simp] theorem State.skipIf_i : (s.skipIf c).i = s.i := rfl
@[simp] theorem State.skipIf_pc : (s.skipIf c).pc = if c then s.pc + 2 else s.pc := rfl
@[simp] theorem State.skipIf_stack : (s.skipIf c).stack = s.stack := rfl
@[simp] theorem State.skipIf_sp : (s.skipIf c).sp = s.sp := rfl
@[simp] theorem State.skipIf_dt : (s.skipIf c).dt = s.dt := rfl
@[simp] theorem State.skipIf_st : (s.skipIf c).st = s.st := rfl
@[simp] theorem State.skipIf_disp : (s.skipIf c).disp = s.disp := rfl
@[simp] theorem State.skipIf_mem : (s.skipIf c).mem = s.mem := rfl
@[simp] theorem State.skipIf_keys : (s.skipIf c).keys = s.keys := rfl
@[simp] theorem State.skipIf_fault : (s.skipIf c).fault = s.fault := rfl
@[simp] theorem State.skipIf_tickPos : (s.skipIf c).tickPos = s.tickPos := rfl
@[simp] theorem State.skipIf_ticks : (s.skipIf c).ticks = s.ticks := rfl
@[simp] theorem State.skipIf_hostMasks : (s.skipIf c).hostMasks = s.hostMasks := rfl
@[simp] theorem State.skipIf_draws : (s.skipIf c).draws = s.draws := rfl
end SkipIf

section SetDt
variable (s : State) (b : Byte)
@[simp] theorem State.setDt_cfg : (s.setDt b).cfg = s.cfg := rfl
@[simp] theorem State.setDt_v : (s.setDt b).v = s.v := rfl
@[simp] theorem State.setDt_i : (s.setDt b).i = s.i := rfl
@[simp] theorem State.setDt_pc : (s.setDt b).pc = s.pc := rfl
@[simp] theorem State.setDt_stack : (s.setDt b).stack = s.stack := rfl
@[simp] theorem State.setDt_sp : (s.setDt b).sp = s.sp := rfl
@[simp] theorem State.setDt_dt : (s.setDt b).dt = b := rfl
@[simp] theorem State.setDt_st : (s.setDt b).st = s.st := rfl
@[simp] theorem State.setDt_disp : (s.setDt b).disp = s.disp := rfl
@[simp] theorem State.setDt_mem : (s.setDt b).mem = s.mem := rfl
@[simp] theorem State.setDt_keys : (s.setDt b).keys = s.keys := rfl
@[simp] theorem State.setDt_fault : (s.setDt b).fault = s.fault := rfl
@[simp] theorem State.setDt_tickPos : (s.setDt b).tickPos = s.tickPos := rfl
@[simp] theorem State.setDt_ticks : (s.setDt b).ticks = s.ticks := rfl
@[simp] theorem State.setDt_hostMasks : (s.setDt b).hostMasks = s.hostMasks := rfl
@[simp] theorem State.setDt_draws : (s.setDt b).draws = s.draws := rfl
end SetDt

section SetSt
variable (s : State) (b : Byte)
@[simp] theorem State.setSt_cfg : (s.setSt b).cfg = s.cfg := rfl
@[simp] theorem State.setSt_v : (s.setSt b).v = s.v := rfl
@[simp] theorem State.setSt_i : (s.setSt b).i = s.i := rfl
@[simp] theorem State.setSt_pc : (s.setSt b).pc = s.pc := rfl
@[simp] theorem State.setSt_stack : (s.setSt b).stack = s.stack := rfl
@[simp] theorem State.setSt_sp : (s.setSt b).sp = s.sp := rfl
@[simp] theorem State.setSt_dt : (s.setSt b).dt = s.dt := rfl
@[simp] theorem State.setSt_st : (s.setSt b).st = b := rfl
@[simp] theorem State.setSt_disp : (s.setSt b).disp = s.disp := rfl
@[simp] theorem State.setSt_mem : (s.setSt b).mem = s.mem := rfl
@[simp] theorem State.setSt_keys : (s.setSt b).keys = s.keys := rfl
@[simp] theorem State.setSt_fault : (s.setSt b).fault = s.fault := rfl
@[simp] theorem State.setSt_tickPos : (s.setSt b).tickPos = s.tickPos := rfl
@[simp] theorem State.setSt_ticks : (s.setSt b).ticks = s.ticks := rfl
@[simp] theorem State.setSt_hostMasks : (s.setSt b).hostMasks = s.hostMasks := rfl
@[simp] theorem State.setSt_draws : (s.setSt b).draws = s.draws := rfl
end SetSt

section Push
variable (s : State) (w : Word)
@[simp] theorem State.push_cfg : (s.push w).cfg = s.cfg := rfl
@[simp] theorem State.push_v : (s.push w).v = s.v := rfl
@[simp] theorem State.push_i : (s.push w).i = s.i := rfl
@[simp] theorem State.push_pc : (s.push w).pc = s.pc := rfl
@[simp] theorem State.push_stack : (s.push w).stack = s.stack.set s.sp w := rfl
@[simp] theorem State.push_sp : (s.push w).sp = s.sp + 1 := rfl
@[simp] theorem State.push_dt : (s.push w).dt = s.dt := rfl
@[simp] theorem State.push_st : (s.push w).st = s.st := rfl
@[simp] theorem State.push_disp : (s.push w).disp = s.disp := rfl
@[simp] theorem State.push_mem : (s.push w).mem = s.mem := rfl
@[simp] theorem State.push_keys : (s.push w).keys = s.keys := rfl
@[simp] theorem State.push_fault : (s.push w).fault = s.fault := rfl
@[simp] theorem State.push_tickPos : (s.push w).tickPos = s.tickPos := rfl
@[simp] theorem State.push_ticks : (s.push w).ticks = s.ticks := rfl
@[simp] theorem State.push_hostMasks : (s.push w).hostMasks = s.hostMasks := rfl
@[simp] theorem State.push_draws : (s.push w).draws = s.draws := rfl
end Push

section DropTop
variable (s : State)
@[simp] theorem State.dropTop_cfg : s.dropTop.cfg = s.cfg := rfl
@[simp] theorem State.dropTop_v : s.dropTop.v = s.v := rfl
@[simp] theorem State.dropTop_i : s.dropTop.i = s.i := rfl
@[simp] theorem State.dropTop_pc : s.dropTop.pc = s.pc := rfl
@[simp] theorem State.dropTop_stack : s.dropTop.stack = s.stack := rfl
@[simp] theorem State.dropTop_sp : s.dropTop.sp = s.sp - 1 := rfl
@[simp] theorem State.dropTop_dt : s.dropTop.dt = s.dt := rfl
@[simp] theorem State.dropTop_st : s.dropTop.st = s.st := rfl
@[simp] theorem State.dropTop_disp : s.dropTop.disp = s.disp := rfl
@[simp] theorem State.dropTop_mem : s.dropTop.mem = s.mem := rfl
@[simp] theorem State.dropTop_keys : s.dropTop.keys = s.keys := rfl
@[simp] theorem State.dropTop_fault : s.dropTop.fault = s.fault := rfl
@[simp] theorem State.dropTop_tickPos : s.dropTop.tickPos = s.tickPos := rfl
@[simp] theorem State.dropTop_ticks : s.dropTop.ticks = s.ticks := rfl
@[simp] theorem State.dropTop_hostMasks : s.dropTop.hostMasks = s.hostMasks := rfl
@[simp] theorem State.dropTop_draws : s.dropTop.draws = s.draws := rfl
end DropTop

section WriteByte
variable (s : State) (a : Nat) (b : Byte)
@[simp] theorem State.writeByte_cfg : (s.writeByte a b).cfg = s.cfg := rfl
@[simp] theorem State.writeByte_v : (s.writeByte a b).v = s.v := rfl
@[simp] theorem State.writeByte_i : (s.writeByte a b).i = s.i := rfl
@[simp] theorem State.writeByte_pc : (s.writeByte a b).pc = s.pc := rfl
@[simp] theorem State.writeByte_stack : (s.writeByte a b).stack = s.stack := rfl
@[simp] theorem State.writeByte_sp : (s.writeByte a b).sp = s.sp := rfl
@[simp] theorem State.writeByte_dt : (s.writeByte a b).dt = s.dt := rfl
@[simp] theorem State.writeByte_st : (s.writeByte a b).st = s.st := rfl
@[simp] theorem State.writeByte_disp : (s.writeByte a b).disp = s.disp := rfl
@[simp] theorem State.writeByte_mem : (s.writeByte a b).mem = Memory.write s.cfg s.mem a b := rfl
@[simp] theorem State.writeByte_keys : (s.writeByte a b).keys = s.keys := rfl
@[simp] theorem State.writeByte_fault : (s.writeByte a b).fault = s.fault := rfl
@[simp] theorem State.writeByte_tickPos : (s.writeByte a b).tickPos = s.tickPos := rfl
@[simp] theorem State.writeByte_ticks : (s.writeByte a b).ticks = s.ticks := rfl
@[simp] theorem State.writeByte_hostMasks : (s.writeByte a b).hostMasks = s.hostMasks := rfl
@[simp] theorem State.writeByte_draws : (s.writeByte a b).draws = s.draws := rfl
end WriteByte

section SetDisp
variable (s : State) (d : Display)
@[simp] theorem State.setDisp_cfg : (s.setDisp d).cfg = s.cfg := rfl
@[simp] theorem State.setDisp_v : (s.setDisp d).v = s.v := rfl
@[simp] theorem State.setDisp_i : (s.setDisp d).i = s.i := rfl
@[simp] theorem State.setDisp_pc : (s.setDisp d).pc = s.pc := rfl
@[simp] theorem State.setDisp_stack : (s.setDisp d).stack = s.stack := rfl
@[simp] theorem State.setDisp_sp : (s.setDisp d).sp = s.sp := rfl
@[simp] theorem State.setDisp_dt : (s.setDisp d).dt = s.dt := rfl
@[simp] theorem State.setDisp_st : (s.setDisp d).st = s.st := rfl
@[simp] theorem State.setDisp_disp : (s.setDisp d).disp = d := rfl
@[simp] theorem State.setDisp_mem : (s.setDisp d).mem = s.mem := rfl
@[simp] theorem State.setDisp_keys : (s.setDisp d).keys = s.keys := rfl
@[simp] theorem State.setDisp_fault : (s.setDisp d).fault = s.fault := rfl
@[simp] theorem State.setDisp_tickPos : (s.setDisp d).tickPos = s.tickPos := rfl
@[simp] theorem State.setDisp_ticks : (s.setDisp d).ticks = s.ticks := rfl
@[simp] theorem State.setDisp_hostMasks : (s.setDisp d).hostMasks = s.hostMasks := rfl
@[simp] theorem State.setDisp_draws : (s.setDisp d).draws = s.draws := rfl
end SetDisp

section SpendDraw
variable (s : State)
@[simp] theorem State.spendDraw_cfg : s.spendDraw.cfg = s.cfg := rfl
@[simp] theorem State.spendDraw_v : s.spendDraw.v = s.v := rfl
@[simp] theorem State.spendDraw_i : s.spendDraw.i = s.i := rfl
@[simp] theorem State.spendDraw_pc : s.spendDraw.pc = s.pc := rfl
@[simp] theorem State.spendDraw_stack : s.spendDraw.stack = s.stack := rfl
@[simp] theorem State.spendDraw_sp : s.spendDraw.sp = s.sp := rfl
@[simp] theorem State.spendDraw_dt : s.spendDraw.dt = s.dt := rfl
@[simp] theorem State.spendDraw_st : s.spendDraw.st = s.st := rfl
@[simp] theorem State.spendDraw_disp : s.spendDraw.disp = s.disp := rfl
@[simp] theorem State.spendDraw_mem : s.spendDraw.mem = s.mem := rfl
@[simp] theorem State.spendDraw_keys : s.spendDraw.keys = s.keys := rfl
@[simp] theorem State.spendDraw_fault : s.spendDraw.fault = s.fault := rfl
@[simp] theorem State.spendDraw_tickPos : s.spendDraw.tickPos = s.tickPos := rfl
@[simp] theorem State.spendDraw_ticks : s.spendDraw.ticks = s.ticks := rfl
@[simp] theorem State.spendDraw_hostMasks : s.spendDraw.hostMasks = s.hostMasks := rfl
@[simp] theorem State.spendDraw_draws : s.spendDraw.draws = s.draws + 1 := rfl
end SpendDraw

section Raise
variable (s : State) (f : Fault)
@[simp] theorem State.raise_cfg : (s.raise f).cfg = s.cfg := rfl
@[simp] theorem State.raise_v : (s.raise f).v = s.v := rfl
@[simp] theorem State.raise_i : (s.raise f).i = s.i := rfl
@[simp] theorem State.raise_pc : (s.raise f).pc = s.pc := rfl
@[simp] theorem State.raise_stack : (s.raise f).stack = s.stack := rfl
@[simp] theorem State.raise_sp : (s.raise f).sp = s.sp := rfl
@[simp] theorem State.raise_dt : (s.raise f).dt = s.dt := rfl
@[simp] theorem State.raise_st : (s.raise f).st = s.st := rfl
@[simp] theorem State.raise_disp : (s.raise f).disp = s.disp := rfl
@[simp] theorem State.raise_mem : (s.raise f).mem = s.mem := rfl
@[simp] theorem State.raise_keys : (s.raise f).keys = s.keys := rfl
@[simp] theorem State.raise_fault : (s.raise f).fault = some f := rfl
@[simp] theorem State.raise_tickPos : (s.raise f).tickPos = s.tickPos := rfl
@[simp] theorem State.raise_ticks : (s.raise f).ticks = s.ticks := rfl
@[simp] theorem State.raise_hostMasks : (s.raise f).hostMasks = s.hostMasks := rfl
@[simp] theorem State.raise_draws : (s.raise f).draws = s.draws := rfl
end Raise

section LatchKeys
variable (s : State)
@[simp] theorem State.latchKeys_cfg : s.latchKeys.cfg = s.cfg := rfl
@[simp] theorem State.latchKeys_v : s.latchKeys.v = s.v := rfl
@[simp] theorem State.latchKeys_i : s.latchKeys.i = s.i := rfl
@[simp] theorem State.latchKeys_pc : s.latchKeys.pc = s.pc := rfl
@[simp] theorem State.latchKeys_stack : s.latchKeys.stack = s.stack := rfl
@[simp] theorem State.latchKeys_sp : s.latchKeys.sp = s.sp := rfl
@[simp] theorem State.latchKeys_dt : s.latchKeys.dt = s.dt := rfl
@[simp] theorem State.latchKeys_st : s.latchKeys.st = s.st := rfl
@[simp] theorem State.latchKeys_disp : s.latchKeys.disp = s.disp := rfl
@[simp] theorem State.latchKeys_mem : s.latchKeys.mem = s.mem := rfl
@[simp] theorem State.latchKeys_keys : s.latchKeys.keys = s.nextMask := rfl
@[simp] theorem State.latchKeys_fault : s.latchKeys.fault = s.fault := rfl
@[simp] theorem State.latchKeys_tickPos : s.latchKeys.tickPos = s.tickPos := rfl
@[simp] theorem State.latchKeys_ticks : s.latchKeys.ticks = s.ticks + 1 := rfl
@[simp] theorem State.latchKeys_hostMasks : s.latchKeys.hostMasks = s.hostMasks.tail := rfl
@[simp] theorem State.latchKeys_draws : s.latchKeys.draws = s.draws := rfl
end LatchKeys

section CountTimers
variable (s : State)
@[simp] theorem State.countTimers_cfg : s.countTimers.cfg = s.cfg := rfl
@[simp] theorem State.countTimers_v : s.countTimers.v = s.v := rfl
@[simp] theorem State.countTimers_i : s.countTimers.i = s.i := rfl
@[simp] theorem State.countTimers_pc : s.countTimers.pc = s.pc := rfl
@[simp] theorem State.countTimers_stack : s.countTimers.stack = s.stack := rfl
@[simp] theorem State.countTimers_sp : s.countTimers.sp = s.sp := rfl
@[simp] theorem State.countTimers_dt : s.countTimers.dt = countDown s.dt := rfl
@[simp] theorem State.countTimers_st : s.countTimers.st = countDown s.st := rfl
@[simp] theorem State.countTimers_disp : s.countTimers.disp = s.disp := rfl
@[simp] theorem State.countTimers_mem : s.countTimers.mem = s.mem := rfl
@[simp] theorem State.countTimers_keys : s.countTimers.keys = s.keys := rfl
@[simp] theorem State.countTimers_fault : s.countTimers.fault = s.fault := rfl
@[simp] theorem State.countTimers_tickPos : s.countTimers.tickPos = s.tickPos := rfl
@[simp] theorem State.countTimers_ticks : s.countTimers.ticks = s.ticks := rfl
@[simp] theorem State.countTimers_hostMasks : s.countTimers.hostMasks = s.hostMasks := rfl
@[simp] theorem State.countTimers_draws : s.countTimers.draws = s.draws := rfl
end CountTimers

end Sys2Proof.Machine
end

