-- ==== Sys2Proof/Laws/Memory.lean ====
section
/-! SUPPORT. The laws of memory: a read after a write, and the canonical form every operation keeps. -/

namespace Sys2Proof.Machine

open Sys2Proof

@[simp] theorem Memory.read_nil (c : Config) (a : Nat) : Memory.read c [] a = resetByte c a := rfl

theorem Memory.lookup_insert (m : Memory) (a b : Nat) (x : Byte) :
    Memory.lookup (Memory.insert m a x) b = if a = b then some x else Memory.lookup m b := by
  induction m with
  | nil => simp [Memory.insert, Memory.lookup]
  | cons p t ih =>
    obtain ⟨k, y⟩ := p
    by_cases h₁ : a < k
    · simp [Memory.insert, Memory.lookup, h₁]
    · by_cases h₂ : a = k
      · subst h₂
        by_cases h : a = b <;> simp [Memory.insert, Memory.lookup, h]
      · by_cases h : k = b
        · subst h
          simp [Memory.insert, Memory.lookup, h₁, h₂]
        · simp [Memory.insert, Memory.lookup, h₁, h₂, h, ih]

theorem Memory.lookup_eq_none_of_lt {m : Memory} {a : Nat} (h : ∀ p ∈ m, a < p.1) : Memory.lookup m a = none := by
  induction m with
  | nil => rfl
  | cons p t ih =>
    obtain ⟨k, y⟩ := p
    have hk : a < k := h (k, y) (by simp)
    have : k ≠ a := by omega
    simp [Memory.lookup, this, ih fun q hq => h q (by simp [hq])]

theorem Memory.lookup_erase {m : Memory} (hm : m.Pairwise fun p q => p.1 < q.1) (a b : Nat) :
    Memory.lookup (Memory.erase m a) b = if a = b then none else Memory.lookup m b := by
  induction m with
  | nil => simp [Memory.erase, Memory.lookup]
  | cons p t ih =>
    obtain ⟨k, y⟩ := p
    obtain ⟨hk, ht⟩ := List.pairwise_cons.1 hm
    by_cases h₁ : k = a
    · subst h₁
      by_cases h₂ : k = b
      · subst h₂
        simpa [Memory.erase] using Memory.lookup_eq_none_of_lt hk
      · simp [Memory.erase, Memory.lookup, h₂]
    · by_cases hb : k = b
      · subst hb
        simp [Memory.erase, Memory.lookup, h₁, Ne.symm h₁]
      · simp [Memory.erase, Memory.lookup, h₁, hb, ih ht]

/-- A read after a write: the byte written at its address, the old byte everywhere else. -/
theorem Memory.read_write {c : Config} {m : Memory} (hm : Memory.wf c m) (a b : Nat) (x : Byte) :
    Memory.read c (Memory.write c m a x) b = if a = b then x else Memory.read c m b := by
  unfold Memory.write Memory.read
  split_ifs with h₁ h₂ h₂
  · subst h₂; simp [Memory.lookup_erase hm.1, h₁]
  · simp [Memory.lookup_erase hm.1, h₂]
  · subst h₂; simp [Memory.lookup_insert]
  · simp [Memory.lookup_insert, h₂]

theorem Memory.mem_insert {m : Memory} {a : Nat} {x : Byte} {p : Host.Cell} (h : p ∈ Memory.insert m a x) :
    p = (a, x) ∨ p ∈ m := by
  induction m with
  | nil => simpa [Memory.insert] using h
  | cons q t ih =>
    obtain ⟨k, y⟩ := q
    unfold Memory.insert at h
    split_ifs at h with h₁ h₂
    · simpa using h
    · simp only [List.mem_cons] at h ⊢
      tauto
    · simp only [List.mem_cons] at h ⊢
      rcases h with h | h
      · exact .inr (.inl h)
      · rcases ih h with h | h <;> tauto

theorem Memory.mem_erase {m : Memory} {a : Nat} {p : Host.Cell} (h : p ∈ Memory.erase m a) : p ∈ m := by
  induction m with
  | nil => simp [Memory.erase] at h
  | cons q t ih =>
    unfold Memory.erase at h
    split_ifs at h with h₁
    · exact List.mem_cons_of_mem _ h
    · simp only [List.mem_cons] at h ⊢
      exact h.imp id ih

theorem Memory.pairwise_insert {m : Memory} (hm : m.Pairwise fun p q => p.1 < q.1) (a : Nat) (x : Byte) :
    (Memory.insert m a x).Pairwise fun p q => p.1 < q.1 := by
  induction m with
  | nil => simp [Memory.insert]
  | cons q t ih =>
    obtain ⟨k, y⟩ := q
    obtain ⟨hk, ht⟩ := List.pairwise_cons.1 hm
    unfold Memory.insert
    split_ifs with h₁ h₂
    · refine List.pairwise_cons.2 ⟨fun p hp => ?_, hm⟩
      rcases List.mem_cons.1 hp with rfl | hp
      · exact h₁
      · exact h₁.trans (hk p hp)
    · subst h₂
      exact List.pairwise_cons.2 ⟨hk, ht⟩
    · refine List.pairwise_cons.2 ⟨fun p hp => ?_, ih ht⟩
      rcases Memory.mem_insert hp with rfl | hp
      · show k < a; omega
      · exact hk p hp

theorem Memory.pairwise_erase {m : Memory} (hm : m.Pairwise fun p q => p.1 < q.1) (a : Nat) :
    (Memory.erase m a).Pairwise fun p q => p.1 < q.1 := by
  induction m with
  | nil => simp [Memory.erase]
  | cons q t ih =>
    obtain ⟨hk, ht⟩ := List.pairwise_cons.1 hm
    unfold Memory.erase
    split_ifs with h₁
    · exact ht
    · exact List.pairwise_cons.2 ⟨fun p hp => hk p (Memory.mem_erase hp), ih ht⟩

@[simp] theorem Memory.wf_nil (c : Config) : Memory.wf c [] := by simp [Memory.wf]

/-- A write inside the address space keeps the canonical form. -/
theorem Memory.wf_write {c : Config} {m : Memory} (hm : Memory.wf c m) {a : Nat} (ha : a ≤ 4095) (x : Byte) :
    Memory.wf c (Memory.write c m a x) := by
  unfold Memory.write
  split_ifs with h
  · exact ⟨Memory.pairwise_erase hm.1 a, fun p hp => hm.2 p (Memory.mem_erase hp)⟩
  · refine ⟨Memory.pairwise_insert hm.1 a x, fun p hp => ?_⟩
    rcases Memory.mem_insert hp with rfl | hp
    · exact ⟨ha, h⟩
    · exact hm.2 p hp

end Sys2Proof.Machine
end

