-- ==== Sys2Proof/Laws/Ops.lean ====
section
/-! SUPPORT. What each shared operation does, said once: the readers (a register, a byte, a cell, a stack slot) over every
update, and one lemma per block operation. -/

namespace Sys2Proof.Machine

open Sys2Proof

/-! Registers. -/

/-- Reading register y after writing register x. -/
theorem State.getV_setV (s : State) (x y : Reg) (b : Byte) :
    (s.setV x b).getV y = if x = y then b else s.getV y := by
  simp only [State.getV, State.setV, Vector.getElem_set]
  by_cases h : x = y
  · simp [h]
  · simp [h, BitVec.toNat_inj]

@[simp] theorem State.getV_setV_self (s : State) (x : Reg) (b : Byte) : (s.setV x b).getV x = b := by
  simp [State.getV_setV]

/-- The result, then the flag: VF ends as the flag whatever x is (R142). -/
theorem State.getV_setResultThenFlag (s : State) (x y : Reg) (r f : Byte) :
    (s.setResultThenFlag x r f).getV y = if y = vf then f else if x = y then r else s.getV y := by
  simp only [State.setResultThenFlag, State.getV_setV, eq_comm (a := vf)]

/-- Two register files are equal if every register reads the same. -/
theorem State.v_ext {s t : State} (h : ∀ x : Reg, s.getV x = t.getV x) : s.v = t.v := by
  apply Vector.ext
  intro k hk
  simpa [State.getV, Nat.mod_eq_of_lt hk] using h (BitVec.ofNat 4 k)

@[simp] theorem State.getV_setI (s : State) (w : Word) (y : Reg) : (s.setI w).getV y = s.getV y := rfl
@[simp] theorem State.getV_setPc (s : State) (w : Word) (y : Reg) : (s.setPc w).getV y = s.getV y := rfl
@[simp] theorem State.getV_advance (s : State) (y : Reg) : s.advance.getV y = s.getV y := rfl
@[simp] theorem State.getV_skipIf (s : State) (c : Bool) (y : Reg) : (s.skipIf c).getV y = s.getV y := rfl
@[simp] theorem State.getV_setDt (s : State) (b : Byte) (y : Reg) : (s.setDt b).getV y = s.getV y := rfl
@[simp] theorem State.getV_setSt (s : State) (b : Byte) (y : Reg) : (s.setSt b).getV y = s.getV y := rfl
@[simp] theorem State.getV_push (s : State) (w : Word) (y : Reg) : (s.push w).getV y = s.getV y := rfl
@[simp] theorem State.getV_dropTop (s : State) (y : Reg) : s.dropTop.getV y = s.getV y := rfl
@[simp] theorem State.getV_writeByte (s : State) (a : Nat) (b : Byte) (y : Reg) : (s.writeByte a b).getV y = s.getV y := rfl
@[simp] theorem State.getV_setDisp (s : State) (d : Display) (y : Reg) : (s.setDisp d).getV y = s.getV y := rfl
@[simp] theorem State.getV_spendDraw (s : State) (y : Reg) : s.spendDraw.getV y = s.getV y := rfl
@[simp] theorem State.getV_raise (s : State) (f : Fault) (y : Reg) : (s.raise f).getV y = s.getV y := rfl
@[simp] theorem State.getV_latchKeys (s : State) (y : Reg) : s.latchKeys.getV y = s.getV y := rfl
@[simp] theorem State.getV_countTimers (s : State) (y : Reg) : s.countTimers.getV y = s.getV y := rfl

@[simp] theorem State.readByte_setV (s : State) (x : Reg) (b : Byte) (k : Nat) : (s.setV x b).readByte k = s.readByte k := rfl
@[simp] theorem State.readByte_setResultThenFlag (s : State) (x : Reg) (r f : Byte) (k : Nat) : (s.setResultThenFlag x r f).readByte k = s.readByte k := rfl
@[simp] theorem State.readByte_setI (s : State) (w : Word) (k : Nat) : (s.setI w).readByte k = s.readByte k := rfl
@[simp] theorem State.readByte_setPc (s : State) (w : Word) (k : Nat) : (s.setPc w).readByte k = s.readByte k := rfl
@[simp] theorem State.readByte_advance (s : State) (k : Nat) : s.advance.readByte k = s.readByte k := rfl
@[simp] theorem State.readByte_skipIf (s : State) (c : Bool) (k : Nat) : (s.skipIf c).readByte k = s.readByte k := rfl
@[simp] theorem State.readByte_setDt (s : State) (b : Byte) (k : Nat) : (s.setDt b).readByte k = s.readByte k := rfl
@[simp] theorem State.readByte_setSt (s : State) (b : Byte) (k : Nat) : (s.setSt b).readByte k = s.readByte k := rfl
@[simp] theorem State.readByte_push (s : State) (w : Word) (k : Nat) : (s.push w).readByte k = s.readByte k := rfl
@[simp] theorem State.readByte_dropTop (s : State) (k : Nat) : s.dropTop.readByte k = s.readByte k := rfl
@[simp] theorem State.readByte_setDisp (s : State) (d : Display) (k : Nat) : (s.setDisp d).readByte k = s.readByte k := rfl
@[simp] theorem State.readByte_spendDraw (s : State) (k : Nat) : s.spendDraw.readByte k = s.readByte k := rfl
@[simp] theorem State.readByte_raise (s : State) (f : Fault) (k : Nat) : (s.raise f).readByte k = s.readByte k := rfl
@[simp] theorem State.readByte_latchKeys (s : State) (k : Nat) : s.latchKeys.readByte k = s.readByte k := rfl
@[simp] theorem State.readByte_countTimers (s : State) (k : Nat) : s.countTimers.readByte k = s.readByte k := rfl

@[simp] theorem State.cell_setV (s : State) (x : Reg) (b : Byte) (y x' : Nat) : (s.setV x b).cell y x' = s.cell y x' := rfl
@[simp] theorem State.cell_setResultThenFlag (s : State) (x : Reg) (r f : Byte) (y x' : Nat) : (s.setResultThenFlag x r f).cell y x' = s.cell y x' := rfl
@[simp] theorem State.cell_setI (s : State) (w : Word) (y x' : Nat) : (s.setI w).cell y x' = s.cell y x' := rfl
@[simp] theorem State.cell_setPc (s : State) (w : Word) (y x' : Nat) : (s.setPc w).cell y x' = s.cell y x' := rfl
@[simp] theorem State.cell_advance (s : State) (y x' : Nat) : s.advance.cell y x' = s.cell y x' := rfl
@[simp] theorem State.cell_skipIf (s : State) (c : Bool) (y x' : Nat) : (s.skipIf c).cell y x' = s.cell y x' := rfl
@[simp] theorem State.cell_setDt (s : State) (b : Byte) (y x' : Nat) : (s.setDt b).cell y x' = s.cell y x' := rfl
@[simp] theorem State.cell_setSt (s : State) (b : Byte) (y x' : Nat) : (s.setSt b).cell y x' = s.cell y x' := rfl
@[simp] theorem State.cell_push (s : State) (w : Word) (y x' : Nat) : (s.push w).cell y x' = s.cell y x' := rfl
@[simp] theorem State.cell_dropTop (s : State) (y x' : Nat) : s.dropTop.cell y x' = s.cell y x' := rfl
@[simp] theorem State.cell_writeByte (s : State) (a : Nat) (b : Byte) (y x' : Nat) : (s.writeByte a b).cell y x' = s.cell y x' := rfl
@[simp] theorem State.cell_spendDraw (s : State) (y x' : Nat) : s.spendDraw.cell y x' = s.cell y x' := rfl
@[simp] theorem State.cell_raise (s : State) (f : Fault) (y x' : Nat) : (s.raise f).cell y x' = s.cell y x' := rfl
@[simp] theorem State.cell_latchKeys (s : State) (y x' : Nat) : s.latchKeys.cell y x' = s.cell y x' := rfl
@[simp] theorem State.cell_countTimers (s : State) (y x' : Nat) : s.countTimers.cell y x' = s.cell y x' := rfl

@[simp] theorem State.stackAt_setV (s : State) (x : Reg) (b : Byte) (j : Nat) : (s.setV x b).stackAt j = s.stackAt j := rfl
@[simp] theorem State.stackAt_setResultThenFlag (s : State) (x : Reg) (r f : Byte) (j : Nat) : (s.setResultThenFlag x r f).stackAt j = s.stackAt j := rfl
@[simp] theorem State.stackAt_setI (s : State) (w : Word) (j : Nat) : (s.setI w).stackAt j = s.stackAt j := rfl
@[simp] theorem State.stackAt_setPc (s : State) (w : Word) (j : Nat) : (s.setPc w).stackAt j = s.stackAt j := rfl
@[simp] theorem State.stackAt_advance (s : State) (j : Nat) : s.advance.stackAt j = s.stackAt j := rfl
@[simp] theorem State.stackAt_skipIf (s : State) (c : Bool) (j : Nat) : (s.skipIf c).stackAt j = s.stackAt j := rfl
@[simp] theorem State.stackAt_setDt (s : State) (b : Byte) (j : Nat) : (s.setDt b).stackAt j = s.stackAt j := rfl
@[simp] theorem State.stackAt_setSt (s : State) (b : Byte) (j : Nat) : (s.setSt b).stackAt j = s.stackAt j := rfl
@[simp] theorem State.stackAt_dropTop (s : State) (j : Nat) : s.dropTop.stackAt j = s.stackAt j := rfl
@[simp] theorem State.stackAt_writeByte (s : State) (a : Nat) (b : Byte) (j : Nat) : (s.writeByte a b).stackAt j = s.stackAt j := rfl
@[simp] theorem State.stackAt_setDisp (s : State) (d : Display) (j : Nat) : (s.setDisp d).stackAt j = s.stackAt j := rfl
@[simp] theorem State.stackAt_spendDraw (s : State) (j : Nat) : s.spendDraw.stackAt j = s.stackAt j := rfl
@[simp] theorem State.stackAt_raise (s : State) (f : Fault) (j : Nat) : (s.raise f).stackAt j = s.stackAt j := rfl
@[simp] theorem State.stackAt_latchKeys (s : State) (j : Nat) : s.latchKeys.stackAt j = s.stackAt j := rfl
@[simp] theorem State.stackAt_countTimers (s : State) (j : Nat) : s.countTimers.stackAt j = s.stackAt j := rfl

/-! Memory through the state. -/

/-- Reading a byte after writing one, in canonical memory. -/
theorem State.readByte_writeByte {s : State} (h : Memory.wf s.cfg s.mem) (a b : Nat) (x : Byte) :
    (s.writeByte a x).readByte b = if a = b then x else s.readByte b :=
  Memory.read_write h a b x

/-! The footprint check (R55). -/

theorem State.footprintPasses_iff (s : State) (n : Nat) :
    s.footprintPasses n = true ↔ 0 < n ∧ 4095 < s.i.toNat + n - 1 := by
  simp [State.footprintPasses]

/-- A footprint inside memory: the instruction's effects happen. -/
theorem State.checkFootprint_ok {s : State} {n : Nat} (h : s.i.toNat + n ≤ 4096) (t : State) :
    s.checkFootprint n t = t := by
  have : s.footprintPasses n = false := by
    rw [← Bool.not_eq_true, State.footprintPasses_iff]; omega
  simp [State.checkFootprint, this]

/-- A footprint that passes address 4095: the fault, and nothing else. -/
theorem State.checkFootprint_raise {s : State} {n : Nat} (h₀ : 0 < n) (h : 4096 < s.i.toNat + n) (t : State) :
    s.checkFootprint n t = s.raise (.dataOutOfBounds s.pc (max s.i.toNat 4096)) := by
  have : s.footprintPasses n = true := by
    rw [State.footprintPasses_iff]; omega
  simp [State.checkFootprint, this]

/-- The empty footprint never faults (DRAW with N = 0). -/
@[simp] theorem State.checkFootprint_zero (s t : State) : s.checkFootprint 0 t = t := by
  simp [State.checkFootprint, State.footprintPasses]

/-- Everything a checked instruction can do: its effects, inside memory, or the fault record and nothing else. -/
theorem State.checkFootprint_cases (s : State) (n : Nat) (t : State) :
    (s.checkFootprint n t = t ∧ ¬ (0 < n ∧ 4095 < s.i.toNat + n - 1)) ∨
    (s.checkFootprint n t = s.raise (.dataOutOfBounds s.pc (max s.i.toNat 4096)) ∧
      (0 < n ∧ 4095 < s.i.toNat + n - 1)) := by
  unfold State.checkFootprint
  rw [← State.footprintPasses_iff]
  cases h : s.footprintPasses n <;> simp

/-! STORE's block. -/

/-- STORE's block changes memory and nothing else. -/
theorem State.storeRegs_eq (s : State) (base n : Nat) : ∃ m, s.storeRegs base n = { s with mem := m } := by
  induction n with
  | zero => exact ⟨s.mem, rfl⟩
  | succ n ih =>
    obtain ⟨m, hm⟩ := ih
    exact ⟨_, by rw [State.storeRegs, hm]; rfl⟩

@[simp] theorem State.getV_storeRegs (s : State) (base n : Nat) (x : Reg) : (s.storeRegs base n).getV x = s.getV x := by
  obtain ⟨m, hm⟩ := s.storeRegs_eq base n
  rw [hm]; rfl

@[simp] theorem State.cfg_storeRegs (s : State) (base n : Nat) : (s.storeRegs base n).cfg = s.cfg := by
  obtain ⟨m, hm⟩ := s.storeRegs_eq base n
  rw [hm]

/-- STORE's block keeps the canonical form. -/
theorem State.wf_storeRegs {s : State} (h : Memory.wf s.cfg s.mem) {base n : Nat} (hb : base + n ≤ 4096) :
    Memory.wf s.cfg (s.storeRegs base n).mem := by
  induction n with
  | zero => exact h
  | succ n ih =>
    have := Memory.wf_write (ih (by omega)) (a := base + n) (by omega) (s.getV (BitVec.ofNat 4 n))
    simpa [State.storeRegs] using this

/-- What STORE's block leaves in memory: register k at base + k for k < n, every other byte as before. -/
theorem State.readByte_storeRegs {s : State} (h : Memory.wf s.cfg s.mem) {base n : Nat} (hb : base + n ≤ 4096) (a : Nat) :
    (s.storeRegs base n).readByte a =
      if base ≤ a ∧ a < base + n then s.getV (BitVec.ofNat 4 (a - base)) else s.readByte a := by
  induction n with
  | zero => simp [State.storeRegs]
  | succ n ih =>
    have hw : Memory.wf (s.storeRegs base n).cfg (s.storeRegs base n).mem := by
      simpa using State.wf_storeRegs h (by omega)
    rw [State.storeRegs, State.readByte_writeByte hw, ih (by omega)]
    by_cases h₁ : base + n = a
    · subst h₁; simp
    · have : (base ≤ a ∧ a < base + (n + 1)) ↔ (base ≤ a ∧ a < base + n) := by omega
      simp only [h₁, if_false, this]

/-! LOAD's block. -/

/-- LOAD's block changes registers and nothing else. -/
theorem State.loadRegs_eq (s : State) (base n : Nat) : ∃ v, s.loadRegs base n = { s with v := v } := by
  induction n with
  | zero => exact ⟨s.v, rfl⟩
  | succ n ih =>
    obtain ⟨v, hv⟩ := ih
    exact ⟨_, by rw [State.loadRegs, hv]; rfl⟩

@[simp] theorem State.readByte_loadRegs (s : State) (base n a : Nat) : (s.loadRegs base n).readByte a = s.readByte a := by
  obtain ⟨v, hv⟩ := s.loadRegs_eq base n
  rw [hv]; rfl

/-- What LOAD's block leaves in the registers: the byte at base + k in register k for k < n, the others as before. -/
theorem State.getV_loadRegs (s : State) (base : Nat) {n : Nat} (hn : n ≤ 16) (x : Reg) :
    (s.loadRegs base n).getV x = if x.toNat < n then s.readByte (base + x.toNat) else s.getV x := by
  induction n with
  | zero => simp [State.loadRegs]
  | succ n ih =>
    have hx : BitVec.ofNat 4 n = x ↔ n = x.toNat := by
      rw [← BitVec.toNat_inj, BitVec.toNat_ofNat, Nat.mod_eq_of_lt (by omega)]
    rw [State.loadRegs, State.getV_setV, ih (by omega)]
    by_cases h₁ : n = x.toNat
    · have h₂ : x.toNat < n + 1 := by omega
      rw [if_pos (hx.2 h₁), if_pos h₂, ← h₁]
    · have h₂ : (x.toNat < n + 1) ↔ (x.toNat < n) := by omega
      rw [if_neg (mt hx.1 h₁)]
      simp only [h₂]

/-! BCD's digits. -/

/-- BCD's digits change memory and nothing else. -/
theorem State.writeDigits_eq (s : State) (b : Byte) : ∃ m, s.writeDigits b = { s with mem := m } := ⟨_, rfl⟩

/-- BCD's digits keep the canonical form. -/
theorem State.wf_writeDigits {s : State} (h : Memory.wf s.cfg s.mem) (hi : s.i.toNat + 2 ≤ 4095) (b : Byte) :
    Memory.wf s.cfg (s.writeDigits b).mem := by
  have h₁ := Memory.wf_write h (a := s.i.toNat) (by omega) (bcdHundreds b)
  have h₂ := Memory.wf_write h₁ (a := s.i.toNat + 1) (by omega) (bcdTens b)
  exact Memory.wf_write h₂ hi (bcdUnits b)

/-- What BCD leaves in memory. -/
theorem State.readByte_writeDigits {s : State} (h : Memory.wf s.cfg s.mem) (hi : s.i.toNat + 2 ≤ 4095) (b : Byte) (a : Nat) :
    (s.writeDigits b).readByte a =
      if a = s.i.toNat then bcdHundreds b
      else if a = s.i.toNat + 1 then bcdTens b
      else if a = s.i.toNat + 2 then bcdUnits b
      else s.readByte a := by
  have h₁ := Memory.wf_write h (a := s.i.toNat) (by omega) (bcdHundreds b)
  have h₂ := Memory.wf_write h₁ (a := s.i.toNat + 1) (by omega) (bcdTens b)
  rw [State.writeDigits, State.readByte_writeByte (s := (s.writeByte _ _).writeByte _ _) h₂,
    State.readByte_writeByte (s := s.writeByte _ _) h₁, State.readByte_writeByte h]
  by_cases h₃ : s.i.toNat = a
  · subst h₃
    simp
  by_cases h₄ : s.i.toNat + 1 = a
  · subst h₄
    simp
  by_cases h₅ : s.i.toNat + 2 = a
  · subst h₅
    simp
  · simp [h₃, h₄, h₅, Ne.symm h₃, Ne.symm h₄, Ne.symm h₅]

/-! The stack. -/

/-- Reading a stack slot after a push onto a stack with a free slot. -/
theorem State.stackAt_push {s : State} (h : s.sp < s.stack.length) (w : Word) (j : Nat) :
    (s.push w).stackAt j = if j = s.sp then w else s.stackAt j := by
  by_cases hj : j = s.sp
  · subst hj
    simp [State.stackAt, State.push, h]
  · simp [State.stackAt, State.push, hj, List.getD, List.getElem?_set_ne (Ne.symm hj)]

/-! The display. -/

/-- Reading a cell after writing one. -/
theorem Display.cell_setCell (d : Display) (y x y' x' : Nat) (b : Bool) :
    Display.cell (Display.setCell d y x b) y' x' =
      if y = y' ∧ x = x' ∧ y < 32 ∧ x < 64 then b else Display.cell d y' x' := by
  unfold Display.setCell
  split
  · rename_i h
    unfold Display.cell
    split
    · rename_i h'
      by_cases hy : y = y'
      · subst hy
        by_cases hx : x = x'
        · subst hx; simp [h]
        · simp [hx, Vector.getElem_set_ne]
      · simp [hy, Vector.getElem_set_ne]
    · rename_i h'
      have : ¬ (y = y' ∧ x = x' ∧ y < 32 ∧ x < 64) := by
        rintro ⟨rfl, rfl, hyx⟩; exact h' hyx
      simp [this]
  · rename_i h
    have : ¬ (y = y' ∧ x = x' ∧ y < 32 ∧ x < 64) := fun hh => h hh.2.2
    simp [this]

@[simp] theorem Display.cell_clear (y x : Nat) : Display.cell Display.clear y x = false := by
  unfold Display.cell Display.clear
  split <;> simp

/-- Two displays are equal if every cell reads the same. -/
theorem Display.ext_cell {d e : Display} (h : ∀ y x, y < 32 → x < 64 → Display.cell d y x = Display.cell e y x) : d = e := by
  apply Vector.ext
  intro y hy
  apply Vector.ext
  intro x hx
  simpa [Display.cell, hy, hx] using h y x hy hx

end Sys2Proof.Machine
end

