-- ==== Sys2Proof/Laws/Exec.lean ====
section
/-! SUPPORT. What an instruction, a Step and the ends of a tick can do, said once. -/

namespace Sys2Proof.Machine

open Sys2Proof

/-! The two ends of a step. -/

section BeginStep
variable (s : State)
@[simp] theorem State.beginStep_cfg : s.beginStep.cfg = s.cfg := by unfold State.beginStep; split <;> rfl
@[simp] theorem State.beginStep_v : s.beginStep.v = s.v := by unfold State.beginStep; split <;> rfl
@[simp] theorem State.beginStep_i : s.beginStep.i = s.i := by unfold State.beginStep; split <;> rfl
@[simp] theorem State.beginStep_pc : s.beginStep.pc = s.pc := by unfold State.beginStep; split <;> rfl
@[simp] theorem State.beginStep_stack : s.beginStep.stack = s.stack := by unfold State.beginStep; split <;> rfl
@[simp] theorem State.beginStep_sp : s.beginStep.sp = s.sp := by unfold State.beginStep; split <;> rfl
@[simp] theorem State.beginStep_dt : s.beginStep.dt = s.dt := by unfold State.beginStep; split <;> rfl
@[simp] theorem State.beginStep_st : s.beginStep.st = s.st := by unfold State.beginStep; split <;> rfl
@[simp] theorem State.beginStep_disp : s.beginStep.disp = s.disp := by unfold State.beginStep; split <;> rfl
@[simp] theorem State.beginStep_mem : s.beginStep.mem = s.mem := by unfold State.beginStep; split <;> rfl
@[simp] theorem State.beginStep_fault : s.beginStep.fault = s.fault := by unfold State.beginStep; split <;> rfl
@[simp] theorem State.beginStep_tickPos : s.beginStep.tickPos = s.tickPos := by unfold State.beginStep; split <;> rfl
@[simp] theorem State.beginStep_draws : s.beginStep.draws = s.draws := by unfold State.beginStep; split <;> rfl
@[simp] theorem State.beginStep_keys : s.beginStep.keys = if s.tickPos = 0 then s.nextMask else s.keys := by
  unfold State.beginStep; split <;> rfl
@[simp] theorem State.fetch_beginStep : s.beginStep.fetch = s.fetch := by unfold State.beginStep; split <;> rfl
@[simp] theorem State.getV_beginStep (x : Reg) : s.beginStep.getV x = s.getV x := by unfold State.beginStep; split <;> rfl
@[simp] theorem State.readByte_beginStep (a : Nat) : s.beginStep.readByte a = s.readByte a := by
  unfold State.beginStep; split <;> rfl
@[simp] theorem State.stackAt_beginStep (j : Nat) : s.beginStep.stackAt j = s.stackAt j := by
  unfold State.beginStep; split <;> rfl
end BeginStep

section EndStep
variable (s : State)
@[simp] theorem State.endStep_cfg : s.endStep.cfg = s.cfg := by unfold State.endStep; split_ifs <;> rfl
@[simp] theorem State.endStep_v : s.endStep.v = s.v := by unfold State.endStep; split_ifs <;> rfl
@[simp] theorem State.endStep_i : s.endStep.i = s.i := by unfold State.endStep; split_ifs <;> rfl
@[simp] theorem State.endStep_pc : s.endStep.pc = s.pc := by unfold State.endStep; split_ifs <;> rfl
@[simp] theorem State.endStep_stack : s.endStep.stack = s.stack := by unfold State.endStep; split_ifs <;> rfl
@[simp] theorem State.endStep_sp : s.endStep.sp = s.sp := by unfold State.endStep; split_ifs <;> rfl
@[simp] theorem State.endStep_disp : s.endStep.disp = s.disp := by unfold State.endStep; split_ifs <;> rfl
@[simp] theorem State.endStep_mem : s.endStep.mem = s.mem := by unfold State.endStep; split_ifs <;> rfl
@[simp] theorem State.endStep_keys : s.endStep.keys = s.keys := by unfold State.endStep; split_ifs <;> rfl
@[simp] theorem State.endStep_fault : s.endStep.fault = s.fault := by unfold State.endStep; split_ifs <;> rfl
@[simp] theorem State.endStep_ticks : s.endStep.ticks = s.ticks := by unfold State.endStep; split_ifs <;> rfl
@[simp] theorem State.endStep_hostMasks : s.endStep.hostMasks = s.hostMasks := by unfold State.endStep; split_ifs <;> rfl
@[simp] theorem State.endStep_draws : s.endStep.draws = s.draws := by unfold State.endStep; split_ifs <;> rfl
@[simp] theorem State.getV_endStep (x : Reg) : s.endStep.getV x = s.getV x := by unfold State.endStep; split_ifs <;> rfl
@[simp] theorem State.readByte_endStep (a : Nat) : s.endStep.readByte a = s.readByte a := by
  unfold State.endStep; split_ifs <;> rfl
@[simp] theorem State.stackAt_endStep (j : Nat) : s.endStep.stackAt j = s.stackAt j := by
  unfold State.endStep; split_ifs <;> rfl
/-- A fault ends the step as it is (R98). -/
theorem State.endStep_of_fault {s : State} (h : s.fault ≠ none) : s.endStep = s := by
  simp [State.endStep, Option.isSome_iff_ne_none.2 h]
end EndStep

/-! The fetch. -/

theorem State.fetch_eq_some {s : State} (h : s.pc.toNat ≤ 0x0FFE) :
    s.fetch = some (wordOfBytes (s.readByte s.pc.toNat) (s.readByte (s.pc.toNat + 1))) := by
  rw [State.fetch, if_neg (by omega)]

theorem State.fetch_eq_none {s : State} (h : 0x0FFF ≤ s.pc.toNat) : s.fetch = none := by
  rw [State.fetch, if_pos (by omega)]

theorem State.pc_le_of_fetch {s : State} {w : Word} (h : s.fetch = some w) : s.pc.toNat ≤ 0x0FFE := by
  unfold State.fetch at h
  split at h
  · cases h
  · omega

/-! Instructions. -/

/-- Every instruction answers a next state. -/
theorem exec_next (i : Instr) (s : State) : ∃ t, exec i s = .next t := by cases i <;> exact ⟨_, rfl⟩

/-- An instruction completes and leaves the fault record alone, or it leaves everything but the record alone. -/
theorem exec_fault_cases {i : Instr} {s t : State} (h : exec i s = .next t) : t.fault = s.fault ∨ ∃ f, t = s.raise f := by
  cases i <;>
    simp only [exec, execCls, execRet, execJp, execCall, execSkeq, execSkne, execSkreq, execSkrne, execJpoff, execSet,
      execAddi, execMov, execOr, execAnd, execXor, execAdd, execSub, execShr, execRsub, execShl, execRnd, execSeti,
      execAddidx, execFont, execBcd, execStore, execLoad, execDraw, execSkp, execSknp, execGetdt, execWaitk, execSetdt,
      execSetst, Host.Outcome.next.injEq] at h <;>
    subst h
  case ret => split <;> simp
  case call => split <;> simp
  case draw x y n => rcases s.checkFootprint_cases (s.rowsDrawn y n) _ with ⟨h, _⟩ | ⟨h, _⟩ <;> rw [h] <;> simp
  case bcd x => rcases s.checkFootprint_cases 3 _ with ⟨h, _⟩ | ⟨h, _⟩ <;> rw [h] <;> simp [State.writeDigits]
  case store x =>
    obtain ⟨m, hm⟩ := s.advance.storeRegs_eq s.i.toNat (blockLength x)
    rcases s.checkFootprint_cases (blockLength x) _ with ⟨h, _⟩ | ⟨h, _⟩ <;> rw [h] <;> simp [hm]
  case load x =>
    obtain ⟨m, hm⟩ := s.advance.loadRegs_eq s.i.toNat (blockLength x)
    rcases s.checkFootprint_cases (blockLength x) _ with ⟨h, _⟩ | ⟨h, _⟩ <;> rw [h] <;> simp [hm]
  all_goals simp

/-! Steps. -/

/-- A Step answers a next state. -/
theorem stepInstr_next (s : State) : ∃ t, stepInstr s = .next t := by
  unfold stepInstr fetchExecute execWord
  split
  · exact ⟨_, rfl⟩
  · split
    · exact ⟨_, rfl⟩
    · split
      · exact exec_next _ _
      · exact ⟨_, rfl⟩

/-- Everything a Step can do: nothing in a faulted state; else the fetch's fault, the no-op of an UNKNOWN word, or the
decoded instruction. -/
theorem stepInstr_cases {s t : State} (h : stepInstr s = .next t) :
    (s.fault ≠ none ∧ t = s) ∨
    (s.fault = none ∧ s.fetch = none ∧ t = s.raise (.fetchOutOfBounds s.pc)) ∨
    (s.fault = none ∧ ∃ w r, s.fetch = some w ∧ decode w = .error r ∧ t = s.advance) ∨
    (s.fault = none ∧ ∃ w i, s.fetch = some w ∧ decode w = .ok i ∧ exec i s = .next t) := by
  unfold stepInstr at h
  by_cases hf : s.fault = none
  · simp only [hf, Option.isSome_none, Bool.false_eq_true, if_false, fetchExecute] at h
    cases hw : s.fetch with
    | none =>
      simp only [hw, Host.Outcome.next.injEq] at h
      exact .inr (.inl ⟨hf, rfl, h.symm⟩)
    | some w =>
      simp only [hw, execWord] at h
      cases hd : decode w with
      | ok i =>
        simp only [hd] at h
        exact .inr (.inr (.inr ⟨hf, w, i, rfl, hd, h⟩))
      | error r =>
        simp only [hd, execUnknown, Host.Outcome.next.injEq] at h
        exact .inr (.inr (.inl ⟨hf, w, r, rfl, hd, h.symm⟩))
  · simp only [Option.isSome_iff_ne_none.2 hf, if_true, Host.Outcome.next.injEq] at h
    exact .inl ⟨hf, h.symm⟩

/-- Everything a step of the machine can do: nothing in a faulted state, else a Step between the two ends. -/
theorem step_cases {s t : State} (h : step s = .next t) :
    (s.fault ≠ none ∧ t = s) ∨
    (s.fault = none ∧ ∃ u, stepInstr s.beginStep = .next u ∧ t = u.endStep) := by
  unfold step at h
  by_cases hf : s.fault = none
  · obtain ⟨u, hu⟩ := stepInstr_next s.beginStep
    simp only [hf, Option.isSome_none, Bool.false_eq_true, if_false, hu, Host.Outcome.next.injEq] at h
    exact .inr ⟨hf, u, hu, h.symm⟩
  · simp only [Option.isSome_iff_ne_none.2 hf, if_true, Host.Outcome.next.injEq] at h
    exact .inl ⟨hf, h.symm⟩

end Sys2Proof.Machine
end

