-- ==== Sys2Proof/Laws/Frames.lean ====
section
/-! SUPPORT. What the shared operations leave unchanged, in the terms of Sys2Proof/Safety.lean. -/

namespace Sys2Proof.Safety

open Sys2Proof Sys2Proof.Machine

/-- Any update of pc alone. -/
theorem changesOnlyRegs_setPc (s : State) (w : Word) : ChangesOnlyRegs [] s (s.setPc w) :=
  ⟨fun _ _ => rfl, rfl, fun _ => rfl, fun _ _ => rfl, ⟨rfl, rfl⟩, ⟨rfl, rfl⟩, ⟨rfl, rfl, rfl, rfl, rfl, rfl⟩, rfl⟩

/-- The advance and a skip move pc alone. -/
theorem changesOnlyRegs_skipIf (s : State) (c : Bool) : ChangesOnlyRegs [] s (s.advance.skipIf c) :=
  ⟨fun _ _ => rfl, rfl, fun _ => rfl, fun _ _ => rfl, ⟨rfl, rfl⟩, ⟨rfl, rfl⟩, ⟨rfl, rfl, rfl, rfl, rfl, rfl⟩, rfl⟩

/-- Writing one register, beside any update of pc. -/
theorem changesOnlyRegs_setV (s : State) (w : Word) (x : Reg) (b : Byte) : ChangesOnlyRegs [x] s ((s.setPc w).setV x b) := by
  refine ⟨fun y hy => ?_, rfl, fun _ => rfl, fun _ _ => rfl, ⟨rfl, rfl⟩, ⟨rfl, rfl⟩, ⟨rfl, rfl, rfl, rfl, rfl, rfl⟩, rfl⟩
  have hy' : x ≠ y := fun h => hy (by simp [h])
  rw [State.getV_setV, if_neg hy', State.getV_setPc]

/-- Writing a result and a flag, beside the advance. -/
theorem changesOnlyRegs_setResultThenFlag (s : State) (x : Reg) (r f : Byte) :
    ChangesOnlyRegs [x, 0xF] s (s.advance.setResultThenFlag x r f) := by
  refine ⟨fun y hy => ?_, rfl, fun _ => rfl, fun _ _ => rfl, ⟨rfl, rfl⟩, ⟨rfl, rfl⟩, ⟨rfl, rfl, rfl, rfl, rfl, rfl⟩, rfl⟩
  have hx : x ≠ y := fun h => hy (by simp [h])
  have hf : y ≠ vf := fun h => hy (by simp [h, vf])
  rw [State.getV_setResultThenFlag, if_neg hf, if_neg hx, State.getV_advance]

/-- Writing I, beside the advance. -/
theorem changesOnlyIndex_setI (s : State) (w : Word) : ChangesOnlyIndexAndRegs [] s (s.advance.setI w) :=
  ⟨fun _ _ => rfl, fun _ => rfl, fun _ _ => rfl, ⟨rfl, rfl⟩, ⟨rfl, rfl⟩, ⟨rfl, rfl, rfl, rfl, rfl, rfl⟩, rfl⟩

/-- Writing I and one register, beside the advance. -/
theorem changesOnlyIndexAndRegs_setV (s : State) (w : Word) (x : Reg) (b : Byte) :
    ChangesOnlyIndexAndRegs [x] s ((s.advance.setI w).setV x b) := by
  refine ⟨fun y hy => ?_, fun _ => rfl, fun _ _ => rfl, ⟨rfl, rfl⟩, ⟨rfl, rfl⟩, ⟨rfl, rfl, rfl, rfl, rfl, rfl⟩, rfl⟩
  have hy' : x ≠ y := fun h => hy (by simp [h])
  rw [State.getV_setV, if_neg hy', State.getV_setI, State.getV_advance]

end Sys2Proof.Safety
end

