-- ==== Sys2Proof/Laws/PerInstr.lean ====
section
/-! SUPPORT. Statements about every instruction as syntax, one lemma per constructor. -/

namespace Sys2Proof.Laws

open Sys2Proof

/-- Every term of `Instr` is well formed: its operand types hold exactly the ranges of their fields (R21, R80). -/
theorem wellFormed_instr (i : Instr) : i.wellFormed = true := by
  cases i <;> simp [Instr.wellFormed] <;> omega

/-! What each mask of the opcode map leaves of a word (R74). -/

theorem and_opNnn (op : Nibble) (nnn : Addr12) : (op ++ nnn : Word) &&& 0xF000 = op ++ 0#12 :=
  BitVec.eq_of_getLsbD_eq fun k hk => by
    rw [BitVec.getLsbD_and, getLsbD_opNnn, getLsbD_opNnn]; interval_cases k <;> simp

theorem and_opXNn (op : Nibble) (x : Reg) (nn : Byte) : (op ++ x ++ nn : Word) &&& 0xF000 = op ++ 0#4 ++ 0#8 :=
  BitVec.eq_of_getLsbD_eq fun k hk => by
    rw [BitVec.getLsbD_and, getLsbD_opXNn, getLsbD_opXNn]; interval_cases k <;> simp

theorem and_opXNn_low (op : Nibble) (x : Reg) (nn : Byte) : (op ++ x ++ nn : Word) &&& 0xF0FF = op ++ 0#4 ++ nn :=
  BitVec.eq_of_getLsbD_eq fun k hk => by
    rw [BitVec.getLsbD_and, getLsbD_opXNn, getLsbD_opXNn]; interval_cases k <;> simp

theorem and_opXYN (op : Nibble) (x y : Reg) (n : Nibble) :
    (op ++ x ++ y ++ n : Word) &&& 0xF000 = op ++ 0#4 ++ 0#4 ++ 0#4 :=
  BitVec.eq_of_getLsbD_eq fun k hk => by
    rw [BitVec.getLsbD_and, getLsbD_opXYN, getLsbD_opXYN]; interval_cases k <;> simp

theorem and_opXYN_low (op : Nibble) (x y : Reg) (n : Nibble) :
    (op ++ x ++ y ++ n : Word) &&& 0xF00F = op ++ 0#4 ++ 0#4 ++ n :=
  BitVec.eq_of_getLsbD_eq fun k hk => by
    rw [BitVec.getLsbD_and, getLsbD_opXYN, getLsbD_opXYN]; interval_cases k <;> simp

namespace EncodesInItsRow

/-- The encoding of an instruction selects the instruction's own row of the opcode map: `w & mask = match` (R74). -/
def Statement (i : Instr) : Prop := selects (encode i) i

theorem cls : Statement .cls := rfl
theorem ret : Statement .ret := rfl
theorem jp (nnn : Addr12) : Statement (.jp nnn) := and_opNnn _ nnn
theorem call (nnn : Addr12) : Statement (.call nnn) := and_opNnn _ nnn
theorem skeq (x : Reg) (nn : Byte) : Statement (.skeq x nn) := and_opXNn _ x nn
theorem skne (x : Reg) (nn : Byte) : Statement (.skne x nn) := and_opXNn _ x nn
theorem skreq (x y : Reg) : Statement (.skreq x y) := and_opXYN_low _ x y _
theorem set (x : Reg) (nn : Byte) : Statement (.set x nn) := and_opXNn _ x nn
theorem addi (x : Reg) (nn : Byte) : Statement (.addi x nn) := and_opXNn _ x nn
theorem mov (x y : Reg) : Statement (.mov x y) := and_opXYN_low _ x y _
theorem or (x y : Reg) : Statement (.or x y) := and_opXYN_low _ x y _
theorem and (x y : Reg) : Statement (.and x y) := and_opXYN_low _ x y _
theorem xor (x y : Reg) : Statement (.xor x y) := and_opXYN_low _ x y _
theorem add (x y : Reg) : Statement (.add x y) := and_opXYN_low _ x y _
theorem sub (x y : Reg) : Statement (.sub x y) := and_opXYN_low _ x y _
theorem shr (x y : Reg) : Statement (.shr x y) := and_opXYN_low _ x y _
theorem rsub (x y : Reg) : Statement (.rsub x y) := and_opXYN_low _ x y _
theorem shl (x y : Reg) : Statement (.shl x y) := and_opXYN_low _ x y _
theorem skrne (x y : Reg) : Statement (.skrne x y) := and_opXYN_low _ x y _
theorem seti (nnn : Addr12) : Statement (.seti nnn) := and_opNnn _ nnn
theorem jpoff (nnn : Addr12) : Statement (.jpoff nnn) := and_opNnn _ nnn
theorem rnd (x : Reg) (nn : Byte) : Statement (.rnd x nn) := and_opXNn _ x nn
theorem draw (x y : Reg) (n : Nibble) : Statement (.draw x y n) := and_opXYN _ x y n
theorem skp (x : Reg) : Statement (.skp x) := and_opXNn_low _ x _
theorem sknp (x : Reg) : Statement (.sknp x) := and_opXNn_low _ x _
theorem getdt (x : Reg) : Statement (.getdt x) := and_opXNn_low _ x _
theorem waitk (x : Reg) : Statement (.waitk x) := and_opXNn_low _ x _
theorem setdt (x : Reg) : Statement (.setdt x) := and_opXNn_low _ x _
theorem setst (x : Reg) : Statement (.setst x) := and_opXNn_low _ x _
theorem addidx (x : Reg) : Statement (.addidx x) := and_opXNn_low _ x _
theorem font (x : Reg) : Statement (.font x) := and_opXNn_low _ x _
theorem bcd (x : Reg) : Statement (.bcd x) := and_opXNn_low _ x _
theorem store (x : Reg) : Statement (.store x) := and_opXNn_low _ x _
theorem load (x : Reg) : Statement (.load x) := and_opXNn_low _ x _

end EncodesInItsRow

end Sys2Proof.Laws
end

