-- ==== Sys2Proof/Tests/Slice0.lean ====
section
/-! SUPPORT. Tests. A word in a test is written out from the pattern of spec/30_encoding.md R74, an expected result is that
of spec/95_test_vectors.md (T and K numbers) or worked out by hand from the rule named. -/

namespace Sys2Proof.Tests

open Sys2Proof Sys2Proof.Machine Sys2Proof.Safety

/-! Well-formedness: one ill-formed record for each range of R6. -/

theorem test_config_sample_wellFormed : Config.sample.WellFormed := by decide
theorem test_config_stack_too_small : ¬ { Config.sample with stackDepth := 15 }.WellFormed := by decide
theorem test_config_budget_zero : ¬ { Config.sample with ipf := 0 }.WellFormed := by decide
theorem test_config_font_too_high : ¬ { Config.sample with fontBase := 0x1B1 }.WellFormed := by decide
theorem test_config_extremes_wellFormed :
    { Config.sample with stackDepth := 17, ipf := 1, fontBase := 0x1B0 }.WellFormed := by decide

/-! Decoding, one word per constructor, every operand at a value of its own. -/

theorem test_decode_cls : decode 0x00E0 = .ok .cls := by decide
theorem test_decode_ret : decode 0x00EE = .ok .ret := by decide
theorem test_decode_jp : decode 0x1ABC = .ok (.jp 0xABC) := by decide
theorem test_decode_call : decode 0x2DEF = .ok (.call 0xDEF) := by decide
theorem test_decode_skeq : decode 0x3A42 = .ok (.skeq 0xA 0x42) := by decide
theorem test_decode_skne : decode 0x4B43 = .ok (.skne 0xB 0x43) := by decide
theorem test_decode_skreq : decode 0x5120 = .ok (.skreq 1 2) := by decide
theorem test_decode_set : decode 0x632A = .ok (.set 3 0x2A) := by decide
theorem test_decode_addi : decode 0x71FE = .ok (.addi 1 0xFE) := by decide
theorem test_decode_mov : decode 0x8AF0 = .ok (.mov 0xA 0xF) := by decide
theorem test_decode_or : decode 0x8121 = .ok (.or 1 2) := by decide
theorem test_decode_and : decode 0x8342 = .ok (.and 3 4) := by decide
theorem test_decode_xor : decode 0x8563 = .ok (.xor 5 6) := by decide
theorem test_decode_add : decode 0x8784 = .ok (.add 7 8) := by decide
theorem test_decode_sub : decode 0x89A5 = .ok (.sub 9 0xA) := by decide
theorem test_decode_shr : decode 0x8BC6 = .ok (.shr 0xB 0xC) := by decide
theorem test_decode_rsub : decode 0x8DE7 = .ok (.rsub 0xD 0xE) := by decide
theorem test_decode_shl : decode 0x8F0E = .ok (.shl 0xF 0) := by decide
theorem test_decode_skrne : decode 0x9340 = .ok (.skrne 3 4) := by decide
theorem test_decode_seti : decode 0xA123 = .ok (.seti 0x123) := by decide
theorem test_decode_jpoff : decode 0xB2F0 = .ok (.jpoff 0x2F0) := by decide
theorem test_decode_rnd : decode 0xC10F = .ok (.rnd 1 0x0F) := by decide
theorem test_decode_draw : decode 0xD125 = .ok (.draw 1 2 5) := by decide
theorem test_decode_skp : decode 0xEA9E = .ok (.skp 0xA) := by decide
theorem test_decode_sknp : decode 0xE1A1 = .ok (.sknp 1) := by decide
theorem test_decode_getdt : decode 0xF207 = .ok (.getdt 2) := by decide
theorem test_decode_waitk : decode 0xF50A = .ok (.waitk 5) := by decide
theorem test_decode_setdt : decode 0xF115 = .ok (.setdt 1) := by decide
theorem test_decode_setst : decode 0xF318 = .ok (.setst 3) := by decide
theorem test_decode_addidx : decode 0xF21E = .ok (.addidx 2) := by decide
theorem test_decode_font : decode 0xF429 = .ok (.font 4) := by decide
theorem test_decode_bcd : decode 0xF633 = .ok (.bcd 6) := by decide
theorem test_decode_store : decode 0xFF55 = .ok (.store 0xF) := by decide
theorem test_decode_load : decode 0xF865 = .ok (.load 8) := by decide

/-- T110 to T121: the words that look like an instruction and are none. -/
theorem test_decode_unknown_words :
    ([0x0000, 0x0123, 0x00E1, 0x5AB1, 0x8128, 0x812F, 0x9001, 0xE000, 0xE19F, 0xF000, 0xF1FF, 0xF175] : List Word).all
      (fun w => decode w = .error (.unknown w)) = true := by decide

/-- A single byte is no instruction (R70). -/
theorem test_decode_one_byte : decodeBytes [0x63] = .error .tooShort := by decide

/-- The host's table word, high byte first: bytes 0x63 then 0x2A, and not the other way round (R52). -/
theorem test_decodeTableWord_byte_order : decodeTableWord 16 0x632A = some (.set 3 0x2A) := by decide

/-- R80 and R82: a line of the notation, and a source with directives: P1's first two words at 0x200, a byte at 0x300. -/
theorem test_assembler :
    asmText (.draw 1 2 5) = "DRAW V1, V2, 0x5" ∧ asmText (.jp 0x204) = "JP 0x204" ∧
      assemble [.instr (.set 0 0), .word 0x6105, .org 0x300, .byte 7] =
        [(0x200, 0x60), (0x201, 0x00), (0x202, 0x61), (0x203, 0x05), (0x300, 7)] := by decide

/-! One step each. `after s w` is the state the spec's Step leaves when the word w stands at pc. -/

/-- The state a result holds; only next states occur. -/
def nextOf (r : Result) (s : State) : State :=
  match r with
  | .next t => t
  | _ => s

/-- One Step (R90) of the word at the program counter. -/
def after (s : State) (w : Nat) : State := nextOf (stepInstr (s.withFetchWord 16 w)) s

/-- The reset state with a changed configuration. -/
def quirky (f : Config → Config) : State := State.construct (f Config.sample)

/-- The reset state (R36). -/
def r0 : State := State.reset

-- T86: the display is cleared and VF is not written.
theorem test_cls :
    let t := after ((r0.setV 0xF 1).setDisp (Display.setCell Display.clear 31 63 true)) 0x00E0
    t.disp = Display.clear ∧ t.getV 0xF = 1 := by decide
-- T4.
theorem test_ret :
    let t := after { r0 with pc := 0x300, sp := 3, stack := [0x0202, 0x0210, 0x02F2] ++ List.replicate 13 0 } 0x00EE
    t.pc = 0x02F2 ∧ t.sp = 2 ∧ t.stackAt 2 = 0x02F2 := by decide
-- T77.
theorem test_ret_underflow :
    let t := after { r0 with pc := 0x400 } 0x00EE
    t.fault = some (.stackUnderflow 0x400) ∧ t.pc = 0x400 ∧ t.sp = 0 := by decide
-- T2: an odd target is no fault.
theorem test_jp : (after r0 0x1203).pc = 0x0203 ∧ (after r0 0x1203).fault = none := by decide
-- T3.
theorem test_call :
    let t := after { r0 with pc := 0x2F0, sp := 2, stack := [0x0202, 0x0210] ++ List.replicate 14 0 } 0x2300
    t.pc = 0x0300 ∧ t.sp = 3 ∧ t.stackAt 2 = 0x02F2 ∧ t.stackAt 1 = 0x0210 := by decide
-- T76.
theorem test_call_overflow :
    let t := after { r0 with sp := 16 } 0x2300
    t.fault = some (.stackOverflow 0x200) ∧ t.pc = 0x200 ∧ t.sp = 16 ∧ t.stack = r0.stack := by decide
-- T5, T6.
theorem test_skeq : (after (r0.setV 0xA 0x42) 0x3A42).pc = 0x204 ∧ (after (r0.setV 0xA 0x43) 0x3A42).pc = 0x202 := by decide
-- T16: the skip at the top of memory is no fault.
theorem test_skeq_at_the_top :
    let t := after { r0 with pc := 0xFFE } 0x3000
    t.pc = 0x1002 ∧ t.fault = none := by decide
-- T7, T8.
theorem test_skne : (after (r0.setV 0xA 0x43) 0x4A42).pc = 0x204 ∧ (after (r0.setV 0xA 0x42) 0x4A42).pc = 0x202 := by decide
-- T9, T10.
theorem test_skreq :
    (after (r0.setV 3 9) 0x5330).pc = 0x204 ∧ (after ((r0.setV 3 9).setV 4 8) 0x5340).pc = 0x202 := by decide
-- T20.
theorem test_set : (after r0 0x6F7F).getV 0xF = 0x7F := by decide
-- T21: no flag.
theorem test_addi :
    let t := after ((r0.setV 1 0xFF).setV 0xF 0x55) 0x7102
    t.getV 1 = 1 ∧ t.getV 0xF = 0x55 := by decide
-- T23.
theorem test_mov :
    let t := after ((r0.setV 0xA 9).setV 0xF 1) 0x8AF0
    t.getV 0xA = 1 ∧ t.getV 0xF = 1 := by decide
-- T24.
theorem test_or :
    let t := after (((r0.setV 1 0xF0).setV 2 0x0F).setV 0xF 0x77) 0x8121
    t.getV 1 = 0xFF ∧ t.getV 2 = 0x0F ∧ t.getV 0xF = 0x77 := by decide
-- T25.
theorem test_and :
    let t := after (((r0.setV 1 0xF3).setV 2 0x3C).setV 0xF 0x77) 0x8122
    t.getV 1 = 0x30 ∧ t.getV 0xF = 0x77 := by decide
-- T26, and XOR's operands differing in both directions.
theorem test_xor :
    (after (r0.setV 1 0xA5) 0x8113).getV 1 = 0 ∧ (after ((r0.setV 1 0xF0).setV 2 0x3C) 0x8123).getV 1 = 0xCC := by decide
-- T27.
theorem test_add :
    let t := after ((r0.setV 0 0xF0).setV 1 0x20) 0x8014
    t.getV 0 = 0x10 ∧ t.getV 1 = 0x20 ∧ t.getV 0xF = 1 := by decide
-- T31, T32: the flag wins where the destination is VF.
theorem test_add_into_vf :
    (after ((r0.setV 0xF 0xF0).setV 1 0x20) 0x8F14).getV 0xF = 1 ∧
      (after ((r0.setV 0xF 0x10).setV 1 0x20) 0x8F14).getV 0xF = 0 := by decide
-- T35.
theorem test_sub :
    let t := after ((r0.setV 0 3).setV 1 5) 0x8015
    t.getV 0 = 0xFE ∧ t.getV 0xF = 0 := by decide
-- T36: equal operands do not borrow.
theorem test_sub_equal :
    let t := after ((r0.setV 0 7).setV 1 7) 0x8015
    t.getV 0 = 0 ∧ t.getV 0xF = 1 := by decide
-- T41: the legacy source is V[Y].
theorem test_shr_legacy :
    let t := after ((r0.setV 1 0xAA).setV 2 5) 0x8126
    t.getV 1 = 2 ∧ t.getV 2 = 5 ∧ t.getV 0xF = 1 := by decide
-- T42.
theorem test_shr_quirk :
    let t := after (((quirky fun c => { c with qShiftVx := true }).setV 1 0xAA).setV 2 5) 0x8126
    t.getV 1 = 0x55 ∧ t.getV 2 = 5 ∧ t.getV 0xF = 0 := by decide
-- T39, T40.
theorem test_rsub :
    (after ((r0.setV 0 3).setV 1 5) 0x8017).getV 0 = 2 ∧ (after ((r0.setV 0 3).setV 1 5) 0x8017).getV 0xF = 1 ∧
      (after ((r0.setV 0 5).setV 1 3) 0x8017).getV 0 = 0xFE ∧ (after ((r0.setV 0 5).setV 1 3) 0x8017).getV 0xF = 0 := by
  decide
-- T45.
theorem test_shl_legacy :
    let t := after ((r0.setV 1 1).setV 2 0x81) 0x812E
    t.getV 1 = 2 ∧ t.getV 2 = 0x81 ∧ t.getV 0xF = 1 := by decide
-- T47.
theorem test_shl_quirk :
    let t := after ((quirky fun c => { c with qShiftVx := true }).setV 1 0xFF) 0x810E
    t.getV 1 = 0xFE ∧ t.getV 0xF = 1 := by decide
-- T11, T12.
theorem test_skrne :
    (after (r0.setV 3 9) 0x9330).pc = 0x202 ∧ (after ((r0.setV 3 9).setV 4 8) 0x9340).pc = 0x204 := by decide
-- T51.
theorem test_seti : (after { r0 with i := 0x1234 } 0xAFFF).i = 0x0FFF := by decide
-- T13, T14.
theorem test_jpoff :
    (after ((r0.setV 0 0x20).setV 2 4) 0xB2F0).pc = 0x310 ∧
      (after (((quirky fun c => { c with qJumpVx := true }).setV 0 0x20).setV 2 4) 0xB2F0).pc = 0x2F4 := by decide
-- T15: the sum is not reduced to 12 bits.
theorem test_jpoff_past_memory : (after (r0.setV 0 0xFF) 0xBFFF).pc = 0x10FE ∧ (after (r0.setV 0 0xFF) 0xBFFF).fault = none := by
  decide
-- T49: the mask of a draw of B7, through RND's own operation, since the draw itself is a free value.
theorem test_rnd_mask : randomResult 0xB7 0x0F = 0x07 := by decide
-- RND leaves VF and I alone, whatever it draws (R141).
theorem test_rnd :
    let t := after ((r0.setV 0xF 9).setI 0x123) 0xC1FF
    t.getV 0xF = 9 ∧ t.i = 0x123 ∧ t.pc = 0x202 ∧ t.draws = 1 := by decide
-- T80: clipped at column 63, no collision.
theorem test_draw_clips :
    let t := after (({ r0 with i := 0x300 }.setV 0 0x3C).setV 0xF 9 |>.writeByte 0x300 0xFF) 0xD011
    t.cell 0 59 = false ∧ t.cell 0 60 = true ∧ t.cell 0 63 = true ∧ t.cell 0 0 = false ∧ t.cell 1 0 = false ∧
      t.getV 0xF = 0 ∧ t.i = 0x300 := by decide
-- T83: a partial collision.
theorem test_draw_collides :
    let d := Display.setCell (Display.setCell Display.clear 0 0 true) 0 5 true
    let t := after ({ r0 with i := 0x300, disp := d }.writeByte 0x300 0xF0) 0xD011
    t.cell 0 0 = false ∧ t.cell 0 1 = true ∧ t.cell 0 3 = true ∧ t.cell 0 5 = true ∧ t.getV 0xF = 1 := by decide
-- T90, T91.
theorem test_skp :
    (after ({ r0 with keys := 0x0028 }.setV 1 5) 0xE19E).pc = 0x204 ∧
      (after ({ r0 with keys := 0x0028 }.setV 1 4) 0xE19E).pc = 0x202 := by decide
-- T92, T95: key 19 is never pressed, key 15 may be.
theorem test_skp_index :
    (after ({ r0 with keys := 0xFFFF }.setV 1 0x13) 0xE19E).pc = 0x202 ∧
      (after ({ r0 with keys := 0x8000 }.setV 1 0xF) 0xE19E).pc = 0x204 := by decide
-- T93, T94.
theorem test_sknp :
    (after ({ r0 with keys := 0xFFFF }.setV 1 0x13) 0xE1A1).pc = 0x204 ∧
      (after ({ r0 with keys := 0x0028 }.setV 1 5) 0xE1A1).pc = 0x202 := by decide
-- T96.
theorem test_getdt : (after { r0 with dt := 8, st := 3 } 0xF207).getV 2 = 8 ∧ (after { r0 with dt := 8 } 0xF207).dt = 8 := by
  decide
-- T99.
theorem test_waitk_no_key :
    let t := after ({ r0 with pc := 0x204 }.setV 5 9) 0xF50A
    t.pc = 0x204 ∧ t.getV 5 = 9 := by decide
-- T100, T101.
theorem test_waitk_lowest :
    let t := after { r0 with pc := 0x204, keys := 0x0028 } 0xF50A
    t.pc = 0x206 ∧ t.getV 5 = 3 ∧ (after { r0 with pc := 0x204, keys := 0x8000 } 0xF50A).getV 5 = 0xF := by decide
-- T97.
theorem test_setdt : (after (r0.setV 1 0x0A) 0xF115).dt = 10 ∧ (after (r0.setV 1 0x0A) 0xF115).st = 0 := by decide
-- T98.
theorem test_setst : (after (r0.setV 3 0x1E) 0xF318).st = 30 ∧ (after (r0.setV 3 0x1E) 0xF318).dt = 0 := by decide
-- T52, T53: VF only under the quirk.
theorem test_addidx :
    (after ({ r0 with i := 0x0FF0 }.setV 2 0x20) 0xF21E).i = 0x1010 ∧
      (after ({ r0 with i := 0x0FF0 }.setV 2 0x20) 0xF21E).getV 0xF = 0 ∧
      (after ({ quirky fun c => { c with qIndexOvf := true } with i := 0x0FF0 }.setV 2 0x20) 0xF21E).getV 0xF = 1 := by
  decide
-- T54, T55, T57: 0xFFF does not exceed the range, the comparison is after the wrap, and the flag is never cleared.
theorem test_addidx_quirk_edges :
    let q := quirky fun c => { c with qIndexOvf := true }
    (after ({ q with i := 0x0FF0 }.setV 2 0x0F) 0xF21E).getV 0xF = 0 ∧
      (after ({ q with i := 0xFFFF }.setV 2 1) 0xF21E).getV 0xF = 0 ∧
      (after (({ q with i := 0x300 }.setV 2 0x20).setV 0xF 7) 0xF21E).getV 0xF = 7 := by decide
-- T59.
theorem test_font : (after (r0.setV 0 0x1A) 0xF029).i = 0x0082 := by decide
-- T60.
theorem test_font_base_zero : (after ((quirky fun c => { c with fontBase := 0 }).setV 0 0x0F) 0xF029).i = 0x004B := by decide
-- T63: the last legal address.
theorem test_bcd :
    let t := after ({ r0 with i := 0x0FFD }.setV 0 0x7B) 0xF033
    t.readByte 0xFFD = 1 ∧ t.readByte 0xFFE = 2 ∧ t.readByte 0xFFF = 3 ∧ t.i = 0x0FFD ∧ t.fault = none := by decide
-- T72: no partial write.
theorem test_bcd_fault :
    let t := after (({ r0 with i := 0x0FFE }.setV 0 0x7B).writeByte 0xFFE 0x5A |>.writeByte 0xFFF 0x5B) 0xF033
    t.fault = some (.dataOutOfBounds 0x200 0x1000) ∧ t.pc = 0x200 ∧ t.readByte 0xFFE = 0x5A ∧ t.readByte 0xFFF = 0x5B := by
  decide
-- T64, T65.
theorem test_store :
    let s := fun (r : State) => (({ r with i := 0x400 }.setV 0 1).setV 1 2).setV 2 3 |>.setV 3 4
    let t := after (s r0) 0xF255
    t.readByte 0x400 = 1 ∧ t.readByte 0x402 = 3 ∧ t.readByte 0x403 = 0 ∧ t.i = 0x403 ∧
      (after (s (quirky fun c => { c with qMemKeepI := true })) 0xF255).i = 0x400 := by decide
-- T73.
theorem test_store_fault :
    let t := after ((({ r0 with i := 0x0FFF }.setV 0 1).setV 1 2).writeByte 0xFFF 0x5B) 0xF155
    t.fault = some (.dataOutOfBounds 0x200 0x1000) ∧ t.readByte 0xFFF = 0x5B ∧ t.i = 0x0FFF ∧ t.pc = 0x200 := by decide
-- T67, T68.
theorem test_load :
    let s := fun (r : State) => (({ r with i := 0x400 }.setV 2 0x77).writeByte 0x400 0x11).writeByte 0x401 0x22 |>.writeByte 0x402 0x33
    let t := after (s r0) 0xF165
    t.getV 0 = 0x11 ∧ t.getV 1 = 0x22 ∧ t.getV 2 = 0x77 ∧ t.i = 0x402 ∧
      (after (s (quirky fun c => { c with qMemKeepI := true })) 0xF065).i = 0x400 := by decide
-- T74: the smallest offending address is I where I is past memory already.
theorem test_load_fault :
    let t := after ({ r0 with i := 0x1010 }.setV 0 9) 0xF065
    t.fault = some (.dataOutOfBounds 0x200 0x1010) ∧ t.getV 0 = 9 ∧ t.pc = 0x200 := by decide

/-! More of DRAW's clipping and faults, the fetch, UNKNOWN words and ticks. -/

-- T75 and T78: the drawn rows decide the footprint.
theorem test_draw_footprint :
    let t := after { r0 with i := 0x0FFE, v := r0.v.set 15 5 } 0xD013
    let u := after ((({ r0 with i := 0x0FFE }.setV 1 30).writeByte 0xFFE 0x80).writeByte 0xFFF 0x01) 0xD013
    t.fault = some (.dataOutOfBounds 0x200 0x1000) ∧ t.getV 0xF = 5 ∧
      u.fault = none ∧ u.cell 30 0 = true ∧ u.cell 31 7 = true ∧ u.cell 0 0 = false := by decide
-- T70, T71.
theorem test_fetch_out_of_bounds :
    (nextOf (stepInstr { r0 with pc := 0x0FFF }) r0).fault = some (.fetchOutOfBounds 0x0FFF) ∧
      (nextOf (stepInstr { r0 with pc := 0x1000 }) r0).fault = some (.fetchOutOfBounds 0x1000) := by decide
-- T113: only pc moves, and the event names the address and the word.
theorem test_unknown_word :
    let s := ((r0.setV 1 7).setI 0x123).withFetchWord 16 0x5AB1
    after s 0x5AB1 = s.setPc 0x202 ∧ s.diag = some (.unknownOpcode 0x200 0x5AB1) := by decide
-- K3, its first tick: IPF = 1, a jump to itself, DT = 2, ST = 1.
theorem test_tick_counts_timers :
    let s := { (quirky fun c => { c with ipf := 1 }).withFetchWord 16 0x1200 with dt := 2, st := 1 }
    (nextOf (tick 0 s) s).dt = 1 ∧ (nextOf (tick 0 s) s).st = 0 := by decide
-- K6: the fault ends the tick, with no count of the timers and no fourth step.
theorem test_tick_ends_at_fault :
    let s := State.boot { Config.sample with ipf := 4 } [0x61, 0x0A, 0xF1, 0x15, 0x00, 0xEE, 0x62, 0x01]
    let t := nextOf (tick 0xFFFF s) s
    t.fault = some (.stackUnderflow 0x204) ∧ t.pc = 0x204 ∧ t.getV 1 = 0x0A ∧ t.dt = 10 ∧ t.getV 2 = 0 ∧ t.keys = 0xFFFF := by
  decide
-- The host's own entry: the machine's step runs the word withFetchWord places, from reset.
theorem test_step_from_reset :
    ∃ t, step (State.reset.withFetchWord 16 0x632A) = .next t ∧ t.getV 3 = 0x2A ∧ t.pc = 0x202 ∧ t.tickPos = 1 :=
  ⟨_, rfl, by decide⟩
-- The last step of a budget counts the timers and returns to the boundary (R95, R97).
theorem test_step_last_of_budget :
    ∃ t, step { State.reset.withFetchWord 16 0x632A with tickPos := 9, dt := 2, st := 0 } = .next t ∧
      t.tickPos = 0 ∧ t.dt = 1 ∧ t.st = 0 :=
  ⟨_, rfl, by decide⟩
-- The first step of a budget latches the host's mask, a later one does not (R96).
theorem test_step_latches_keys :
    (∃ t, step { State.reset with hostMasks := [0x0140, 1] } = .next t ∧ t.keys = 0x0140 ∧ t.hostMasks = [1]) ∧
      ∃ t, step { State.reset with hostMasks := [0x0140, 1], tickPos := 1 } = .next t ∧ t.keys = 0 ∧ t.hostMasks = [0x0140, 1] :=
  ⟨⟨_, rfl, by decide⟩, ⟨_, rfl, by decide⟩⟩
-- K2 in small: the byte past the ceiling is dropped.
theorem test_load_truncates :
    let s := State.loadFrom 0xFFF [7, 8] r0
    s.readByte 0xFFF = 7 ∧ s.readByte 0x1000 = 0 ∧ MemoryWf s := by decide
/-- Reset memory is canonical, and holds glyph 0 of the font at 0x050 (R35, R36). -/
theorem test_reset_memory : MemoryWf State.reset ∧ State.reset.readByte 0x050 = 0xF0 ∧ State.reset.readByte 0x09F = 0x80 ∧
    State.reset.readByte 0x0A0 = 0 := by decide
/-- Writing what reset left there removes the entry (the canonical form). -/
theorem test_write_back_is_canonical : (r0.writeByte 0x300 1).writeByte 0x300 0 = r0 := by decide

/-! Witnesses: for each statement with hypotheses, a concrete input that meets all of them. -/

/-- The reset state with a word at pc. -/
def at0 (w : Nat) : State := State.reset.withFetchWord 16 w

/-- A result is a next state. -/
def isNext : Result → Bool
  | .next _ => true
  | _ => false

theorem next_of_isNext {r : Result} (h : isNext r = true) : ∃ t, r = .next t := by
  cases r <;> simp_all [isNext]

/-- A stack of reset's slots is well formed, whatever else the state holds (R36). -/
theorem stackWf_of_reset_stack {s : State} (hc : s.cfg = Config.sample) (hs : s.stack = List.replicate 16 0) (hp : s.sp ≤ 16) :
    StackWf s := by
  rw [StackWf, hc, hs]
  exact ⟨rfl, hp, fun w hw => by simp [List.eq_of_mem_replicate hw]⟩

/-- What an instruction leaves. -/
def ex (i : Instr) (s : State) : State := nextOf (exec i s) s

theorem witness_DecodedWordIsItsEncoding : decode 0xFF55 = .ok (.store 0xF) := by decide
theorem witness_DecodeSelectsTheOneRow :
    (decode 0x5AB0 = .ok (.skreq 0xA 0xB) ∧ selects 0x5AB0 (.skreq 1 2)) ∧ decode 0x5AB1 = .error (.unknown 0x5AB1) := by decide
theorem witness_StepRunsDecodedInstruction :
    let s := { (State.reset.writeByte 0xFFE 0x63).writeByte 0xFFF 0x2A with pc := 0xFFE }
    s.fault = none ∧ s.pc.toNat ≤ 0x0FFE ∧
      decode (wordOfBytes (s.readByte s.pc.toNat) (s.readByte (s.pc.toNat + 1))) = .ok (.set 3 0x2A) ∧
      ∃ t, exec (.set 3 0x2A) s.beginStep = .next t :=
  ⟨by decide, by decide, by decide, _, rfl⟩
theorem witness_UnknownWordIsNoOp :
    let s := { State.reset with pc := 0xFFE }
    s.fault = none ∧ s.pc.toNat ≤ 0x0FFE ∧ 0 = wordOfBytes (s.readByte s.pc.toNat) (s.readByte (s.pc.toNat + 1)) ∧
      ∀ i, decode 0 ≠ .ok i :=
  ⟨by decide, by decide, by decide, fun i h => by cases h⟩
theorem witness_DiagReportsUnknownWords : (at0 0xF175).diag = some (.unknownOpcode 0x200 0xF175) := by decide
theorem witness_FetchBeyondMemoryFaults :
    (State.reset.setPc 0x0FFF).fault = none ∧ 0x0FFF ≤ (State.reset.setPc 0x0FFF).pc.toNat ∧
      0x0FFF ≤ (State.reset.setPc 0xFFFF).pc.toNat := by decide
theorem witness_FaultedStateIsAbsorbing : (State.reset.raise (.stackUnderflow 0x200)).fault ≠ none := by decide
theorem witness_FaultsArePrecise :
    (at0 0x00EE).fault = none ∧ ∃ t, step (at0 0x00EE) = .next t ∧ t.fault = some (.stackUnderflow 0x200) :=
  ⟨by decide, _, rfl, by decide⟩
theorem witness_FaultsExactlyWhenStated :
    State.reset.fault = none ∧ (∃ t, exec .ret State.reset = .next t ∧ t.fault ≠ none) ∧
      (∃ t, exec (.draw 0 0 0xF) { State.reset with i := 0x0FF1 } = .next t ∧ t.fault = none) ∧
      ∃ t, exec (.draw 0 0 0xF) { State.reset with i := 0x0FF2 } = .next t ∧ t.fault ≠ none :=
  ⟨by decide, ⟨_, rfl, by decide⟩, ⟨_, rfl, by decide⟩, ⟨_, rfl, by decide⟩⟩
theorem witness_FaultRecords :
    { State.reset with sp := 16 }.sp = State.reset.cfg.stackDepth ∧ State.reset.sp = 0 ∧
      4095 < (State.reset.setI 0x0FFE).i.toNat + 2 ∧ 4095 < (State.reset.setI 0x0FFF).i.toNat + (1 : Reg).toNat ∧
      (0 < min (3 : Nibble).toNat (32 - ((State.reset.setI 0x0FFE).getV 0).toNat % 32) ∧
        4095 < (State.reset.setI 0x0FFE).i.toNat + min (3 : Nibble).toNat (32 - ((State.reset.setI 0x0FFE).getV 0).toNat % 32) - 1) := by
  decide
theorem witness_AddSetsCarry :
    (0 : Reg) ≠ 0xF ∧ 255 < ((State.reset.setV 0 0xFF).getV 0).toNat + ((State.reset.setV 0 0xFF).setV 1 1 |>.getV 1).toNat := by
  decide
theorem witness_ShiftsKeepTheBitShiftedOut :
    let s := State.reset.setV 2 0x81
    let q := { State.reset with cfg := { Config.sample with qShiftVx := true } }.setV 1 0x7E
    (0x81 : Byte) = (if s.cfg.qShiftVx then s.getV 1 else s.getV 2) ∧ (0x7E : Byte) = (if q.cfg.qShiftVx then q.getV 1 else q.getV 2) := by
  decide
theorem witness_RandomnessOnlyThroughRnd :
    (∀ x nn, Instr.add 0 1 ≠ .rnd x nn) ∧ ∃ t, exec (.add 0 1) State.reset = .next t := ⟨by intros; simp, _, rfl⟩
theorem witness_CallPushesReturnAddress :
    StackWf { State.reset with sp := 15 } ∧ { State.reset with sp := 15 }.sp < Config.sample.stackDepth :=
  ⟨stackWf_of_reset_stack rfl rfl (by decide), by decide⟩
theorem witness_RetPopsReturnAddress : { State.reset with sp := 1 }.sp ≠ 0 := by decide
theorem witness_CallThenRetResumes :
    StackWf State.reset ∧ State.reset.sp < State.reset.cfg.stackDepth ∧
      ∃ t, exec (.call 0x300) State.reset = .next t ∧ (t.setV 0 1).stack = t.stack ∧ (t.setV 0 1).sp = t.sp :=
  ⟨stackWf_of_reset_stack rfl rfl (by decide), by decide, _, rfl, rfl, rfl⟩
theorem witness_PcAfterEveryStep :
    (at0 0x00EE).fault = none ∧ (at0 0x00EE).fetch = some 0x00EE ∧ (∃ t, step (at0 0x00EE) = .next t ∧ t.fault ≠ none) ∧
      (at0 0xB2F0).fetch = some 0xB2F0 ∧ ∃ t, step (at0 0xB2F0) = .next t ∧ t.fault = none :=
  ⟨by decide, by decide, ⟨_, rfl, by decide⟩, by decide, _, rfl, by decide⟩
theorem witness_FontComputesGlyphAddress :
    (State.construct { Config.sample with fontBase := 0x1B0 }).cfg.fontBase ≤ 0x1B0 := by decide
theorem witness_BcdWritesThreeDigits :
    MemoryWf (State.reset.setI 0x0FFD) ∧ (State.reset.setI 0x0FFD).i.toNat + 2 ≤ 4095 := by decide
theorem witness_StoreCopiesRegisters :
    MemoryWf (State.reset.setI 0x0FF0) ∧ (State.reset.setI 0x0FF0).i.toNat + (0xF : Reg).toNat ≤ 4095 := by decide
theorem witness_LoadCopiesMemory : (State.reset.setI 0x0FF0).i.toNat + (0xF : Reg).toNat ≤ 4095 := by decide
theorem witness_LoadInvertsStore :
    let s := (State.reset.setI 0x0400).setV 0 7
    MemoryWf s ∧ s.i.toNat + (2 : Reg).toNat ≤ 4095 ∧ ∃ t, exec (.store 2) s = .next t ∧
      ((t.setI 0x0400).setV 0 9).cfg = t.cfg ∧ ((t.setI 0x0400).setV 0 9).mem = t.mem ∧ ((t.setI 0x0400).setV 0 9).i = s.i :=
  ⟨by decide, by decide, _, rfl, rfl, rfl, rfl⟩
theorem witness_StoreIsSeenByNextFetch :
    let s := State.reset.setI 0x202
    MemoryWf s ∧ s.i.toNat + (1 : Reg).toNat ≤ 4095 ∧ (∃ t, exec (.store 1) s = .next t) ∧ s.i.toNat ≤ (s.pc + 2).toNat ∧
      (s.pc + 2).toNat + 1 ≤ s.i.toNat + (1 : Reg).toNat :=
  ⟨by decide, by decide, ⟨_, rfl⟩, by decide, by decide⟩
theorem witness_DrawXorsSprite :
    let s := (State.reset.setI 0x0FFE).setV 1 30
    (0 = (s.getV 0).toNat % 64 ∧ 30 = (s.getV 1).toNat % 32 ∧ 2 = min (3 : Nibble).toNat (32 - 30) ∧
      s.i.toNat + 2 - 1 ≤ 4095) ∧ 0 = min (0 : Nibble).toNat (32 - 30) := by decide
theorem witness_DrawTwiceRestoresDisplay :
    let s := State.reset.setI 0x0050
    (0 : Reg) ≠ 0xF ∧ (1 : Reg) ≠ 0xF ∧ s.fault = none ∧ exec (.draw 0 1 5) s = .next (ex (.draw 0 1 5) s) ∧
      (ex (.draw 0 1 5) s).fault = none ∧ ∃ u, exec (.draw 0 1 5) (ex (.draw 0 1 5) s) = .next u :=
  ⟨by decide, by decide, by decide, rfl, by decide, _, rfl⟩
theorem witness_KeySkipsTestTheMask :
    let s := { State.reset with keys := 0x8000 }
    true = (decide (((s.setV 1 15).getV 1).toNat ≤ 15) && (s.setV 1 15).keys.getLsbD ((s.setV 1 15).getV 1).toNat) ∧
      false = (decide (((s.setV 1 16).getV 1).toNat ≤ 15) && (s.setV 1 16).keys.getLsbD ((s.setV 1 16).getV 1).toNat) := by decide
theorem witness_WaitkTakesLowestKey : State.reset.keys = 0 ∧ { State.reset with keys := 0x8000 }.keys ≠ 0 := by decide
theorem witness_KeysChangeOnlyAtTickStart : State.reset.fault = none ∧ ∃ t, step State.reset = .next t := ⟨by decide, _, rfl⟩
theorem witness_TimersCountAtTickEnd :
    let s := at0 0xF115
    let l := { s with tickPos := 9 }
    (s.fault = none ∧ s.tickPos < s.cfg.ipf ∧ (∃ u, stepInstr s.beginStep = .next u ∧ u.fault = none) ∧
      s.tickPos + 1 ≠ s.cfg.ipf) ∧
    (l.fault = none ∧ l.tickPos < l.cfg.ipf ∧ (∃ u, stepInstr l.beginStep = .next u ∧ u.fault = none) ∧
      l.tickPos + 1 = l.cfg.ipf) :=
  ⟨⟨by decide, by decide, ⟨_, rfl, by decide⟩, by decide⟩, by decide, by decide, ⟨_, rfl, by decide⟩, by decide⟩
theorem witness_BudgetOfStepsIsTick :
    State.reset.tickPos = 0 ∧ 1 ≤ State.reset.cfg.ipf ∧ State.reset.fault = none ∧ ∃ t, tick 1 State.reset = .next t :=
  ⟨by decide, by decide, by decide, next_of_isNext (by decide)⟩
theorem witness_WaitkOccupiesTheTick :
    (at0 0xF30A).fault = none ∧ (at0 0xF30A).fetch.map decode = some (.ok (.waitk 3)) := by decide
theorem witness_SelfJumpIsStable :
    (at0 0x1200).fault = none ∧ (0x200 : Addr12).toNat = (at0 0x1200).pc.toNat ∧
      (at0 0x1200).fetch.map decode = some (.ok (.jp 0x200)) := by decide
theorem witness_ElementsHaveTheirWriters : ∃ t, exec (.seti 1) State.reset = .next t ∧ t.i ≠ State.reset.i := ⟨_, rfl, by decide⟩
theorem witness_VfHasItsWriters :
    ∃ t, exec (.sub 0 1) State.reset = .next t ∧ t.getV 0xF ≠ State.reset.getV 0xF := ⟨_, rfl, by decide⟩
theorem witness_DisplayChangesOnlyByDrawAndCls :
    let s := { at0 0x00E0 with disp := Display.setCell Display.clear 0 0 true }
    ∃ t, step s = .next t ∧ t.disp ≠ s.disp := ⟨_, rfl, by decide⟩
theorem witness_MemoryChangesOnlyByBcdAndStore :
    let s := (at0 0xF055).setI 0x400 |>.setV 0 5
    MemoryWf s ∧ ∃ t, step s = .next t ∧ t.readByte 0x400 ≠ s.readByte 0x400 := ⟨by decide, _, rfl, by decide⟩
theorem witness_ConfigurationIsImmutable :
    (∃ t, step State.reset = .next t) ∧ ∃ t, tick 0 State.reset = .next t :=
  ⟨⟨_, rfl⟩, next_of_isNext (by decide)⟩
theorem witness_StepKeepsTheMachineInvariant : Inv (at0 0xBFFF) ∧ ∃ t, step (at0 0xBFFF) = .next t :=
  ⟨⟨by decide, by decide, stackWf_of_reset_stack rfl rfl (by decide), by decide, by decide⟩, _, rfl⟩
theorem witness_TickKeepsTheMachineInvariant : Inv (at0 0x1200) ∧ ∃ t, tick 0 (at0 0x1200) = .next t :=
  ⟨⟨by decide, by decide, stackWf_of_reset_stack rfl rfl (by decide), by decide, by decide⟩, next_of_isNext (by decide)⟩
theorem witness_PoppedSlotsAreUnobservable :
    let s := { at0 0x00EE with sp := 1, stack := 0x0202 :: List.replicate 15 0 }
    ((0x0202 : Word) :: List.replicate 15 7).length = s.stack.length ∧
      (∀ j, j < s.sp → ((0x0202 : Word) :: List.replicate 15 7).getD j 0 = s.stackAt j) ∧ ∃ t, step s = .next t :=
  ⟨by decide, by decide, _, rfl⟩
theorem witness_ConstructionGivesResetValues : { Config.sample with fontBase := 0x1B0 }.WellFormed := by decide
theorem witness_ConstructionMeetsTheInvariant : Config.sample.WellFormed := by decide
theorem witness_LoadPlacesTheImage : MemoryWf State.reset ∧ (0 : Nat) < ([7] : List Byte).length := by decide

end Sys2Proof.Tests
end

section
/-! PROOFS. Control transfer (spec/41_control_transfer.md): the jumps and the skips move pc alone. -/

namespace Sys2Proof.Machine

open Sys2Proof Sys2Proof.Safety

/-! The operands of the jumps, as natural numbers (R73, R117). -/

@[simp] theorem toNat_addrOf (nnn : Addr12) : (addrOf nnn).toNat = nnn.toNat :=
  BitVec.toNat_setWidth_of_le (by decide)

@[simp] theorem toNat_zextByte (b : Byte) : (zextByte b).toNat = b.toNat :=
  BitVec.toNat_setWidth_of_le (by decide)

/-- NNN[11:8] is the quotient of NNN by 256. -/
theorem selectorOf_eq_ofNat (nnn : Addr12) : selectorOf nnn = BitVec.ofNat 4 (nnn.toNat / 256) := by
  simp [selectorOf, BitVec.extractLsb', Nat.shiftRight_eq_div_pow]

theorem jumpOffset_eq (s : State) (nnn : Addr12) :
    s.jumpOffset nnn = if s.cfg.qJumpVx then s.getV (BitVec.ofNat 4 (nnn.toNat / 256)) else s.getV 0 := by
  rw [State.jumpOffset, selectorOf_eq_ofNat]

/-- A 12-bit address plus a byte is at most 0x10FE, so the 16-bit sum does not wrap. -/
theorem toNat_addrOf_add_zextByte (nnn : Addr12) (b : Byte) :
    (addrOf nnn + zextByte b).toNat = nnn.toNat + b.toNat := by
  rw [BitVec.toNat_add, toNat_addrOf, toNat_zextByte, Nat.mod_eq_of_lt (by omega)]

/-! What the jumps and the skips answer. -/

theorem exec_jp (nnn : Addr12) (s : State) : exec (.jp nnn) s = .next (s.setPc (addrOf nnn)) := rfl

theorem exec_jpoff (nnn : Addr12) (s : State) :
    exec (.jpoff nnn) s = .next (s.setPc (addrOf nnn + zextByte (s.jumpOffset nnn))) := rfl

theorem exec_skeq (x : Reg) (nn : Byte) (s : State) :
    exec (.skeq x nn) s = .next (s.advance.skipIf (s.getV x = nn)) := rfl

theorem exec_skne (x : Reg) (nn : Byte) (s : State) :
    exec (.skne x nn) s = .next (s.advance.skipIf (s.getV x ≠ nn)) := rfl

theorem exec_skreq (x y : Reg) (s : State) :
    exec (.skreq x y) s = .next (s.advance.skipIf (s.getV x = s.getV y)) := rfl

theorem exec_skrne (x y : Reg) (s : State) :
    exec (.skrne x y) s = .next (s.advance.skipIf (s.getV x ≠ s.getV y)) := rfl

/-- A skip from a goes to a + 4 or falls through to a + 2 (R118). -/
theorem pc_advance_skipIf (s : State) (c : Bool) :
    (s.advance.skipIf c).pc = if c then s.pc + 4 else s.pc + 2 := by
  simp [BitVec.add_assoc]

/-- An instruction that skips where two bytes are equal: SKEQ and SKREQ. -/
theorem completes_of_skipIf_eq {i : Instr} {s : State} {a b : Byte}
    (h : exec i s = .next (s.advance.skipIf (a = b))) :
    ∃ t, exec i s = .next t ∧ t.pc = (if a.toNat = b.toNat then s.pc + 4 else s.pc + 2) ∧ ChangesOnlyRegs [] s t :=
  ⟨_, h, by rw [pc_advance_skipIf]; simp [BitVec.toNat_inj], changesOnlyRegs_skipIf s _⟩

/-- An instruction that skips where two bytes differ: SKNE and SKRNE. -/
theorem completes_of_skipIf_ne {i : Instr} {s : State} {a b : Byte}
    (h : exec i s = .next (s.advance.skipIf (a ≠ b))) :
    ∃ t, exec i s = .next t ∧ t.pc = (if a.toNat = b.toNat then s.pc + 2 else s.pc + 4) ∧ ChangesOnlyRegs [] s t :=
  ⟨_, h, by rw [pc_advance_skipIf]; simp [BitVec.toNat_inj], changesOnlyRegs_skipIf s _⟩

/-- Settles O27: each skip is `skipIf` of its own comparison after the advance. -/
theorem skipsCompareOperands : Obligations.SkipsCompareOperands := fun x y nn s =>
  ⟨completes_of_skipIf_eq (exec_skeq x nn s), completes_of_skipIf_ne (exec_skne x nn s),
    completes_of_skipIf_eq (exec_skreq x y s), completes_of_skipIf_ne (exec_skrne x y s)⟩

/-- Settles O28: the sum of NNN and the selected register cannot wrap in 16 bits. -/
theorem jpoffAddsRegister : Obligations.JpoffAddsRegister := fun nnn s =>
  ⟨_, exec_jpoff nnn s, by rw [State.setPc_pc, toNat_addrOf_add_zextByte, jumpOffset_eq], changesOnlyRegs_setPc s _⟩

/-- Settles O23: JP is an update of pc alone, and NNN is kept whole by the zero extension. -/
theorem jpWritesPc : Obligations.JpWritesPc := fun nnn s =>
  ⟨_, exec_jp nnn s, toNat_addrOf nnn, changesOnlyRegs_setPc s _⟩

end Sys2Proof.Machine
end

section
/-! PROOFS. Register instructions without a flag (spec/42_alu.md R130 to R135): each is one register write beside the
advance. -/

namespace Sys2Proof.Machine

open Sys2Proof Sys2Proof.Safety

/-! What they answer. -/

theorem exec_set (x : Reg) (nn : Byte) (s : State) : exec (.set x nn) s = .next (s.advance.setV x nn) := rfl

theorem exec_addi (x : Reg) (nn : Byte) (s : State) :
    exec (.addi x nn) s = .next (s.advance.setV x (s.getV x + nn)) := rfl

theorem exec_mov (x y : Reg) (s : State) : exec (.mov x y) s = .next (s.advance.setV x (s.getV y)) := rfl

theorem exec_or (x y : Reg) (s : State) :
    exec (.or x y) s = .next (s.advance.setV x (s.getV x ||| s.getV y)) := rfl

theorem exec_and (x y : Reg) (s : State) :
    exec (.and x y) s = .next (s.advance.setV x (s.getV x &&& s.getV y)) := rfl

theorem exec_xor (x y : Reg) (s : State) :
    exec (.xor x y) s = .next (s.advance.setV x (s.getV x ^^^ s.getV y)) := rfl

/-- An instruction that writes the byte b to V[X], beside the advance: VF is in the frame unless X names it. -/
theorem completes_of_setV {i : Instr} {s : State} {x : Reg} {b : Byte}
    (h : exec i s = .next (s.advance.setV x b)) :
    ∃ t, exec i s = .next t ∧ t.getV x = b ∧ t.pc = s.pc + 2 ∧ ChangesOnlyRegs [x] s t :=
  ⟨_, h, State.getV_setV_self s.advance x b, State.advance_pc s, changesOnlyRegs_setV s _ x b⟩

/-- The same, for a byte given bit by bit. -/
theorem completes_of_setV_bits {i : Instr} {s : State} {x : Reg} {b : Byte} {p : Nat → Bool}
    (h : exec i s = .next (s.advance.setV x b)) (hb : ∀ k, b.getLsbD k = p k) :
    ∃ t, exec i s = .next t ∧ (∀ k, k < 8 → (t.getV x).getLsbD k = p k) ∧ t.pc = s.pc + 2 ∧
      ChangesOnlyRegs [x] s t := by
  obtain ⟨t, ht, hv, hframe⟩ := completes_of_setV h
  exact ⟨t, ht, fun k _ => by rw [hv, hb], hframe⟩

/-- Settles O15: the sum of two bytes is their sum as natural numbers, mod 256, and no flag is written. -/
theorem addiWrapsSilently : Obligations.AddiWrapsSilently := fun x nn s => by
  obtain ⟨t, ht, hv, hframe⟩ := completes_of_setV (exec_addi x nn s)
  exact ⟨t, ht, by rw [hv, BitVec.toNat_add], hframe⟩

/-- Settles O17: each operation is one register write of a byte whose bits are those of its Boolean operation. -/
theorem logicOperationsAreBitwise : Obligations.LogicOperationsAreBitwise := fun x y s =>
  ⟨completes_of_setV_bits (exec_or x y s) fun _ => BitVec.getLsbD_or,
    completes_of_setV_bits (exec_and x y s) fun _ => BitVec.getLsbD_and,
    completes_of_setV_bits (exec_xor x y s) fun _ => BitVec.getLsbD_xor⟩

/-- Settles O14: SET is one register write of NN. -/
theorem setWritesImmediate : Obligations.SetWritesImmediate := fun x nn s => completes_of_setV (exec_set x nn s)

/-- Settles O16: MOV is one register write of V[Y], read before the write. -/
theorem movCopiesRegister : Obligations.MovCopiesRegister := fun x y s => completes_of_setV (exec_mov x y s)

end Sys2Proof.Machine
end

section
/-! PROOFS. Instructions that write I alone (spec/43_index_memory.md R150, R152): each is one write of I beside the
advance. -/

namespace Sys2Proof.Machine

open Sys2Proof Sys2Proof.Safety

/-! The glyph's address, as a natural number (R152). -/

/-- The low 4 bits of a byte are its remainder by 16. -/
theorem toNat_and_lowNibble (b : Byte) : (b &&& 0x0F).toNat = b.toNat % 16 := by
  rw [BitVec.toNat_and]
  exact Nat.and_two_pow_sub_one_eq_mod b.toNat 4

/-- The last glyph of the highest font of R6 starts at 0x1FB. -/
theorem glyphOffset_add_le {base : Nat} (hbase : base ≤ 0x1B0) (n : Nat) : n % 16 * 5 + base ≤ 0x1FB := by
  omega

/-- Under R6's range of FONT_BASE the address does not wrap in 16 bits. -/
theorem toNat_glyphAddr {c : Config} (hbase : c.fontBase ≤ 0x1B0) (b : Byte) :
    (glyphAddr c b).toNat = b.toNat % 16 * 5 + c.fontBase := by
  have hle := glyphOffset_add_le hbase b.toNat
  rw [glyphAddr, toNat_and_lowNibble, BitVec.toNat_ofNat, Nat.mod_eq_of_lt (by omega)]

/-! What they answer. -/

theorem exec_seti (nnn : Addr12) (s : State) : exec (.seti nnn) s = .next (s.advance.setI (addrOf nnn)) := rfl

theorem exec_font (x : Reg) (s : State) :
    exec (.font x) s = .next (s.advance.setI (glyphAddr s.cfg (s.getV x))) := rfl

/-- An instruction that writes the word w to I, beside the advance. -/
theorem completes_of_setI {i : Instr} {s : State} {w : Word} (h : exec i s = .next (s.advance.setI w)) :
    ∃ t, exec i s = .next t ∧ t.i = w ∧ t.pc = s.pc + 2 ∧ ChangesOnlyIndexAndRegs [] s t :=
  ⟨_, h, State.setI_i s.advance w, State.advance_pc s, changesOnlyIndex_setI s w⟩

/-- Settles O32: FONT is one write of I, and the glyph's address, bounded by the range of FONT_BASE, does not wrap. -/
theorem fontComputesGlyphAddress : Obligations.FontComputesGlyphAddress := fun x s hbase => by
  obtain ⟨t, ht, hi, hframe⟩ := completes_of_setI (exec_font x s)
  have haddr : t.i.toNat = (s.getV x).toNat % 16 * 5 + s.cfg.fontBase := by rw [hi, toNat_glyphAddr hbase]
  exact ⟨t, ht, haddr, haddr ▸ glyphOffset_add_le hbase _, hframe⟩

/-- Settles O30: SETI is one write of I, and the zero extension keeps NNN. -/
theorem setiLoadsAddress : Obligations.SetiLoadsAddress := fun nnn s => by
  obtain ⟨t, ht, hi, hframe⟩ := completes_of_setI (exec_seti nnn s)
  exact ⟨t, ht, by rw [hi, toNat_addrOf], hframe⟩

end Sys2Proof.Machine
end

section
/-! PROOFS. Clearing the display (spec/44_display.md R170): CLS replaces the display beside the advance. -/

namespace Sys2Proof.Machine

open Sys2Proof Sys2Proof.Safety

/-- Nothing but the display, the listed registers and pc has changed. -/
abbrev ChangesOnlyDisplayAndRegs (written : List Reg) (s t : State) : Prop :=
  KeepsRegsBut written s t ∧ t.i = s.i ∧ KeepsMemory s t ∧ KeepsStack s t ∧ KeepsTimers s t ∧ KeepsControl s t ∧
    t.draws = s.draws

/-- Replacing the display, beside the advance. -/
theorem changesOnlyDisplay_setDisp (s : State) (d : Display) :
    ChangesOnlyDisplayAndRegs [] s (s.advance.setDisp d) :=
  ⟨fun y _ => State.getV_setDisp s.advance d y, rfl, State.readByte_setDisp s.advance d, ⟨rfl, rfl⟩, ⟨rfl, rfl⟩,
    ⟨rfl, rfl, rfl, rfl, rfl, rfl⟩, rfl⟩

/-- A state whose display was replaced shows the new one's cells. -/
@[simp] theorem State.cell_setDisp (s : State) (d : Display) (y x : Nat) :
    (s.setDisp d).cell y x = Display.cell d y x := rfl

theorem exec_cls (s : State) : exec .cls s = .next (s.advance.setDisp Display.clear) := rfl

/-- Settles O38: CLS puts the cleared display in place of the old one, and every cell of it reads 0. -/
theorem clsClearsDisplay : Obligations.ClsClearsDisplay := fun s =>
  have hcell : ∀ y x, (s.advance.setDisp Display.clear).cell y x = false := fun y x => by
    rw [State.cell_setDisp, Display.cell_clear]
  ⟨_, exec_cls s, hcell, State.advance_pc s, changesOnlyDisplay_setDisp s Display.clear⟩

end Sys2Proof.Machine
end

section
/-! PROOFS. Timers and the key wait (spec/45_timers_keys.md R182 to R185): GETDT and a WAITK with a key held are one register
write beside the advance, SETDT and SETST one timer write, and a WAITK with no key held is no change at all. -/

namespace Sys2Proof.Machine

open Sys2Proof Sys2Proof.Safety

/-! The lowest-numbered key held (R183). -/

/-- The search is the library's, over the keys k to k + n - 1 in rising order. -/
theorem lowestKeyFrom_eq_find? (keys : Word) (k n : Nat) :
    lowestKeyFrom keys k n = (List.range' k n).find? keys.getLsbD := by
  induction n generalizing k with
  | zero => rfl
  | succ n ih => cases h : keys.getLsbD k <;> simp [lowestKeyFrom, List.range'_succ, h, ih]

/-- A search among all 16 keys misses only in the empty mask. -/
theorem eq_zero_of_lowestKeyFrom_eq_none {keys : Word} (h : lowestKeyFrom keys 0 16 = none) : keys = 0 := by
  rw [lowestKeyFrom_eq_find?, List.find?_range'_eq_none] at h
  refine BitVec.eq_of_getLsbD_eq fun j hj => ?_
  simpa using h j (Nat.zero_le j) (by omega)

/-- In a mask that is not empty, the lowest key is one of 0 to 15, it is held, and no key below it is. -/
theorem lowestKey_isLeast {keys : Word} (h : keys ≠ 0) :
    (lowestKey keys).toNat ≤ 15 ∧ keys.getLsbD (lowestKey keys).toNat = true ∧
      ∀ k, k < (lowestKey keys).toNat → keys.getLsbD k = false := by
  cases hfrom : lowestKeyFrom keys 0 16 with
  | none => exact absurd (eq_zero_of_lowestKeyFrom_eq_none hfrom) h
  | some j =>
    obtain ⟨hheld, hmem, hbelow⟩ :=
      List.find?_range'_eq_some.1 ((lowestKeyFrom_eq_find? keys 0 16).symm.trans hfrom)
    have hj : j < 16 := by simpa using hmem
    have hval : (lowestKey keys).toNat = j := by
      rw [lowestKey, hfrom, Option.getD_some, BitVec.toNat_ofNat, Nat.mod_eq_of_lt (by omega)]
    rw [hval]
    exact ⟨by omega, hheld, fun k hk => by simpa using hbelow k (Nat.zero_le k) hk⟩

/-! What the key wait answers. -/

/-- Writing a register's own content back is no change. -/
theorem State.setV_getV_self (s : State) (x : Reg) : s.setV x (s.getV x) = s := by
  rw [State.setV, State.getV, Vector.set_getElem_self]

theorem exec_waitk_of_no_key (x : Reg) {s : State} (h : s.keys = 0) : exec (.waitk x) s = .next s := by
  have hback : s.setPc (s.advance.pc - 2) = s := by rw [State.advance_pc, BitVec.add_sub_cancel]; rfl
  rw [exec, execWaitk, if_pos h, if_pos h, hback, State.setV_getV_self]

theorem exec_waitk_of_key (x : Reg) {s : State} (h : s.keys ≠ 0) :
    exec (.waitk x) s = .next (s.advance.setV x (lowestKey s.keys)) := by
  rw [exec, execWaitk, if_neg h, if_neg h]; rfl

/-- Settles O43: with no key held the state answered is the one given, pc included; with one held, the register written
receives the least index of the mask. -/
theorem waitkTakesLowestKey : Obligations.WaitkTakesLowestKey := fun x s => by
  refine ⟨fun hnone => ⟨s, exec_waitk_of_no_key x hnone, rfl, changesOnlyRegs_setPc s s.pc⟩, fun hheld => ?_⟩
  obtain ⟨t, ht, hv, hframe⟩ := completes_of_setV (exec_waitk_of_key x hheld)
  obtain ⟨hle, hbit, hbelow⟩ := lowestKey_isLeast hheld
  rw [← hv] at hle hbit hbelow
  exact ⟨t, ht, hle, hbit, hbelow, hframe⟩

/-! The timers (R182, R184, R185). -/

theorem exec_getdt (x : Reg) (s : State) : exec (.getdt x) s = .next (s.advance.setV x s.dt) := rfl

theorem exec_setdt (x : Reg) (s : State) : exec (.setdt x) s = .next (s.advance.setDt (s.getV x)) := rfl

theorem exec_setst (x : Reg) (s : State) : exec (.setst x) s = .next (s.advance.setSt (s.getV x)) := rfl

/-- Nothing but the timers and pc has changed. -/
abbrev ChangesOnlyTimers (s t : State) : Prop :=
  KeepsRegsBut [] s t ∧ t.i = s.i ∧ KeepsMemory s t ∧ KeepsDisplay s t ∧ KeepsStack s t ∧ KeepsControl s t ∧
    t.draws = s.draws

/-- Writing the delay timer, beside the advance. -/
theorem changesOnlyTimers_setDt (s : State) (b : Byte) : ChangesOnlyTimers s (s.advance.setDt b) :=
  ⟨fun _ _ => rfl, rfl, fun _ => rfl, fun _ _ => rfl, ⟨rfl, rfl⟩, ⟨rfl, rfl, rfl, rfl, rfl, rfl⟩, rfl⟩

/-- Writing the sound timer, beside the advance. -/
theorem changesOnlyTimers_setSt (s : State) (b : Byte) : ChangesOnlyTimers s (s.advance.setSt b) :=
  ⟨fun _ _ => rfl, rfl, fun _ => rfl, fun _ _ => rfl, ⟨rfl, rfl⟩, ⟨rfl, rfl, rfl, rfl, rfl, rfl⟩, rfl⟩

/-- Settles O42: GETDT is one register write of DT; SETDT and SETST are each one write of their own timer, which leaves the
other as it was. -/
theorem timerTransfersCopy : Obligations.TimerTransfersCopy := fun x s =>
  ⟨completes_of_setV (exec_getdt x s),
    ⟨_, exec_setdt x s, State.setDt_dt _ _, State.advance_st s, State.advance_pc s, changesOnlyTimers_setDt s _⟩,
    ⟨_, exec_setst x s, State.setSt_st _ _, State.advance_dt s, State.advance_pc s, changesOnlyTimers_setSt s _⟩⟩

end Sys2Proof.Machine
end

section
/-! PROOFS. Encoding and decoding (spec/30_encoding.md R70 to R82): a word is its fields, decoding looks at the fields a row's
mask covers, and the encoder puts the operands back. -/

namespace Sys2Proof

/-! A word, split into the fields of a format (R71). -/

theorem word_eq_opNnn (w : Word) : fieldOP w ++ fieldNNN w = w := by
  refine BitVec.eq_of_getLsbD_eq fun k hk => ?_
  rw [getLsbD_opNnn, fieldOP, fieldNNN, BitVec.getLsbD_extractLsb', BitVec.getLsbD_extractLsb']
  split_ifs with h
  · simp [h]
  · simp [show k - 12 < 4 by omega, show 12 + (k - 12) = k by omega]

theorem word_eq_opXNn (w : Word) : fieldOP w ++ fieldX w ++ fieldNN w = w := by
  refine BitVec.eq_of_getLsbD_eq fun k hk => ?_
  rw [getLsbD_opXNn]
  simp only [fieldOP, fieldX, fieldNN, BitVec.getLsbD_extractLsb']
  split_ifs with h₁ h₂
  · simp [h₁]
  · simp [show k - 8 < 4 by omega, show 8 + (k - 8) = k by omega]
  · simp [show k - 12 < 4 by omega, show 12 + (k - 12) = k by omega]

/-- The two bytes of a word, the high one first, are the word (R52). -/
theorem wordOfBytes_bytes (w : Word) : wordOfBytes (w.extractLsb' 8 8) (w.extractLsb' 0 8) = w := by
  refine BitVec.eq_of_getLsbD_eq fun k hk => ?_
  rw [wordOfBytes, BitVec.getLsbD_append, BitVec.getLsbD_extractLsb', BitVec.getLsbD_extractLsb']
  split_ifs with h
  · simp [h]
  · simp [show k - 8 < 8 by omega, show 8 + (k - 8) = k by omega]

/-! Decoding an encoding: the fields of a word built from its fields are those fields. -/

theorem decode_encode (i : Instr) : decode (encode i) = .ok i := by
  cases i
  case cls | ret => decide
  all_goals simp [encode, decode, decodeFamily8, decodeFamilyE, decodeFamilyF]

/-- Settles O1: the fields the decoder reads are the operands the encoder placed, and the two bytes are the word. -/
theorem decodeOfEncode : Obligations.DecodeOfEncode := fun i =>
  ⟨decode_encode i, fun rest => by
    rw [encodeBytes, List.cons_append, List.cons_append, List.nil_append, decodeBytes, wordOfBytes_bytes, decode_encode]⟩

/-! Encoding a decoded word: on each of the decoder's paths the word's fixed bits are the pattern's. -/

section
variable {w : Word} {op n : Nibble} {nn : Byte} {i : Instr}

theorem opNnn_eq (hop : (fieldOP w).toNat = op.toNat) : op ++ fieldNNN w = w := by
  rw [← BitVec.eq_of_toNat_eq hop, word_eq_opNnn]

theorem opXNn_eq (hop : (fieldOP w).toNat = op.toNat) : op ++ fieldX w ++ fieldNN w = w := by
  rw [← BitVec.eq_of_toNat_eq hop, word_eq_opXNn]

theorem opXNn_low_eq (hop : (fieldOP w).toNat = op.toNat) (hnn : (fieldNN w).toNat = nn.toNat) :
    op ++ fieldX w ++ nn = w := by
  rw [← BitVec.eq_of_toNat_eq hnn, opXNn_eq hop]

theorem opXYN_eq (hop : (fieldOP w).toNat = op.toNat) : op ++ fieldX w ++ fieldY w ++ fieldN w = w := by
  rw [← BitVec.eq_of_toNat_eq hop, ← word_eq_fields]

theorem opXYN_low_eq (hop : (fieldOP w).toNat = op.toNat) (hn : (fieldN w).toNat = n.toNat) :
    op ++ fieldX w ++ fieldY w ++ n = w := by
  rw [← BitVec.eq_of_toNat_eq hn, opXYN_eq hop]

theorem encode_of_decodeFamily0 (h : decodeFamily0 w = .ok i) : encode i = w := by
  unfold decodeFamily0 at h
  split_ifs at h with hcls hret
  all_goals cases h
  · exact hcls.symm
  · exact hret.symm

theorem encode_of_decodeFamily8 (hop : (fieldOP w).toNat = 0x8) (h : decodeFamily8 w = .ok i) : encode i = w := by
  unfold decodeFamily8 at h
  split at h
  all_goals cases h
  all_goals next hn => exact opXYN_low_eq hop hn

theorem encode_of_decodeFamilyE (hop : (fieldOP w).toNat = 0xE) (h : decodeFamilyE w = .ok i) : encode i = w := by
  unfold decodeFamilyE at h
  split at h
  all_goals cases h
  all_goals next hnn => exact opXNn_low_eq hop hnn

theorem encode_of_decodeFamilyF (hop : (fieldOP w).toNat = 0xF) (h : decodeFamilyF w = .ok i) : encode i = w := by
  unfold decodeFamilyF at h
  split at h
  all_goals cases h
  all_goals next hnn => exact opXNn_low_eq hop hnn

theorem encode_of_decode (h : decode w = .ok i) : encode i = w := by
  unfold decode at h
  split at h
  case h_1 => exact encode_of_decodeFamily0 h
  case h_9 hop => exact encode_of_decodeFamily8 hop h
  case h_15 hop => exact encode_of_decodeFamilyE hop h
  case h_16 =>
    simp only [imp_false] at *
    have hlt := (fieldOP w).isLt
    exact encode_of_decodeFamilyF (by omega) h
  case h_6 hop | h_10 hop =>
    split_ifs at h with hn
    cases h
    exact opXYN_low_eq hop (congrArg BitVec.toNat hn)
  all_goals cases h
  case h_2 hop | h_3 hop | h_11 hop | h_12 hop => exact opNnn_eq hop
  case h_14 hop => exact opXYN_eq hop
  all_goals next hop => exact opXNn_eq hop

end

/-- Settles O2: every path of the decoder fixes the bits of the pattern it answers. -/
theorem decodedWordIsItsEncoding : Obligations.DecodedWordIsItsEncoding := fun _ _ => encode_of_decode

/-! The rows of the opcode map (R74, R75). -/

/-- An encoding selects its instruction's row: the mask covers the pattern's fixed bits. -/
theorem selects_encode (i : Instr) : selects (encode i) i := by
  cases i
  case cls | ret => rfl
  case jp nnn | call nnn | seti nnn | jpoff nnn => exact Laws.and_opNnn _ nnn
  case skeq x nn | skne x nn | set x nn | addi x nn | rnd x nn => exact Laws.and_opXNn _ x nn
  case draw x y n => exact Laws.and_opXYN _ x y n
  case skp x | sknp x | getdt x | waitk x | setdt x | setst x | addidx x | font x | bcd x | store x | load x =>
    exact Laws.and_opXNn_low _ x _
  all_goals next x y => exact Laws.and_opXYN_low _ x y _

section
variable (w : Word)

/-! What a mask of the map keeps of a word, as the fields it covers. -/

theorem fieldOP_and_F000 : fieldOP (w &&& 0xF000) = fieldOP w := by
  rw [← word_eq_opNnn w, Laws.and_opNnn]; simp

theorem fieldOP_and_F00F : fieldOP (w &&& 0xF00F) = fieldOP w := by
  rw [word_eq_fields w, Laws.and_opXYN_low]; simp

theorem fieldN_and_F00F : fieldN (w &&& 0xF00F) = fieldN w := by
  rw [word_eq_fields w, Laws.and_opXYN_low]; simp

theorem fieldOP_and_F0FF : fieldOP (w &&& 0xF0FF) = fieldOP w := by
  rw [← word_eq_opXNn w, Laws.and_opXNn_low]; simp

theorem fieldNN_and_F0FF : fieldNN (w &&& 0xF0FF) = fieldNN w := by
  rw [← word_eq_opXNn w, Laws.and_opXNn_low]; simp

end

/-- A word that selects a row decodes to an instruction of that row: the fields the mask covers are the ones the decoder
splits on. -/
theorem decode_of_selects {w : Word} {j : Instr} (h : selects w j) : (decode w).map rowOf = .ok (rowOf j) := by
  cases j
  case cls | ret =>
    have hw := (BitVec.and_allOnes (x := w)).symm.trans h
    rw [hw]
    rfl
  case jp | call | skeq | skne | set | addi | seti | jpoff | rnd | draw =>
    have hop := fieldOP_and_F000 w
    rw [show w &&& 0xF000 = _ from h] at hop
    dsimp only [rowOf] at hop
    rw [decode, ← hop]
    rfl
  case skp | sknp | getdt | waitk | setdt | setst | addidx | font | bcd | store | load =>
    have hop := fieldOP_and_F0FF w
    have hnn := fieldNN_and_F0FF w
    rw [show w &&& 0xF0FF = _ from h] at hop hnn
    dsimp only [rowOf] at hop hnn
    rw [decode, decodeFamilyE, decodeFamilyF, ← hop, ← hnn]
    rfl
  all_goals
    have hop := fieldOP_and_F00F w
    have hn := fieldN_and_F00F w
    rw [show w &&& 0xF00F = _ from h] at hop hn
    dsimp only [rowOf] at hop hn
    rw [decode, decodeFamily8, ← hop, ← hn]
    rfl

/-- A rejected word is rejected under its name. -/
theorem eq_unknown_of_decode {w : Word} {r : Reject} (h : decode w = .error r) : r = .unknown w := by
  unfold decode decodeFamily0 decodeFamily8 decodeFamilyE decodeFamilyF at h
  repeat' split at h
  all_goals cases h
  all_goals rfl

/-- Settles O3: a decoded word is an encoding, which selects its row, and a word that selects any row decodes into it. -/
theorem decodeSelectsTheOneRow : Obligations.DecodeSelectsTheOneRow := fun w => by
  refine ⟨fun i hi => ⟨encode_of_decode hi ▸ selects_encode i, fun j hj => ?_⟩,
    fun r hr => ⟨eq_unknown_of_decode hr, fun j hj => ?_⟩⟩
  · have hrow := decode_of_selects hj
    rw [hi] at hrow
    exact (Except.ok.inj hrow).symm
  · have hrow := decode_of_selects hj
    rw [hr] at hrow
    cases hrow

/-- Settles O4: closed words, evaluated. -/
theorem workedEncodings : Obligations.WorkedEncodings := by
  unfold Obligations.WorkedEncodings
  decide

end Sys2Proof
end

section
/-! PROOFS. What an instruction does, said once: it takes its fault on exactly the conditions of spec/60_exceptions.md R201, or
it completes. -/

namespace Sys2Proof.Machine

open Sys2Proof Sys2Proof.Safety

/-- The conditions on which an instruction faults (R201, R204). -/
def FaultsOn (s : State) : Instr → Prop
  | .call _ => s.sp = s.cfg.stackDepth
  | .ret => s.sp = 0
  | .bcd _ => 4095 < s.i.toNat + 2
  | .store x | .load x => 4095 < s.i.toNat + x.toNat
  | .draw _ y n => 0 < s.rowsDrawn y n ∧ 4095 < s.i.toNat + s.rowsDrawn y n - 1
  | _ => False

/-- The record an instruction's fault leaves (R201). -/
def faultRecord (s : State) : Instr → Fault
  | .call _ => .stackOverflow s.pc
  | .ret => .stackUnderflow s.pc
  | _ => .dataOutOfBounds s.pc (max s.i.toNat 4096)

/-- The state an instruction leaves when its condition for a fault does not hold: what `exec` answers, with the test of the six
instructions that have one taken away. -/
def completed (s : State) : Instr → State
  | .ret => s.dropTop.setPc (s.stackAt (s.sp - 1))
  | .call nnn => (s.push s.advance.pc).setPc (addrOf nnn)
  | .draw x y n =>
    (s.advance.setDisp (s.blitRows (s.originX x) (s.originY y) (s.rowsDrawn y n)).1).setV vf
      (flagByte (s.blitRows (s.originX x) (s.originY y) (s.rowsDrawn y n)).2)
  | .bcd x => s.advance.writeDigits (s.getV x)
  | .store x => (s.advance.storeRegs s.i.toNat (blockLength x)).setI (s.indexAfterBlock x)
  | .load x => (s.advance.loadRegs s.i.toNat (blockLength x)).setI (s.indexAfterBlock x)
  | i =>
    match exec i s with
    | .next t => t
    | _ => s

theorem exec_of_faultsOn {i : Instr} {s : State} (h : FaultsOn s i) : exec i s = .next (s.raise (faultRecord s i)) := by
  cases i
  case ret | call => exact congrArg Host.Outcome.next (if_pos h)
  case draw x y n =>
    obtain ⟨hpos, hpass⟩ := h
    exact congrArg Host.Outcome.next (State.checkFootprint_raise hpos (by omega) _)
  case bcd x =>
    have hpass : 4095 < s.i.toNat + 2 := h
    exact congrArg Host.Outcome.next (State.checkFootprint_raise (by omega) (by omega) _)
  case store x | load x =>
    have hpass : 4095 < s.i.toNat + x.toNat := h
    exact congrArg Host.Outcome.next
      (State.checkFootprint_raise (n := blockLength x) (Nat.succ_pos _) (by rw [blockLength]; omega) _)
  all_goals exact h.elim

theorem exec_of_not_faultsOn {i : Instr} {s : State} (h : ¬ FaultsOn s i) : exec i s = .next (completed s i) := by
  cases i
  case ret | call => exact congrArg Host.Outcome.next (if_neg h)
  case draw x y n =>
    have hfit : ¬ (0 < s.rowsDrawn y n ∧ 4095 < s.i.toNat + s.rowsDrawn y n - 1) := h
    rcases s.checkFootprint_cases (s.rowsDrawn y n) (completed s (.draw x y n)) with ⟨hok, -⟩ | ⟨-, hpass⟩
    · exact congrArg Host.Outcome.next hok
    · exact absurd hpass hfit
  case bcd x =>
    have hfit : ¬ 4095 < s.i.toNat + 2 := h
    exact congrArg Host.Outcome.next (State.checkFootprint_ok (by omega) _)
  case store x | load x =>
    have hfit : ¬ 4095 < s.i.toNat + x.toNat := h
    exact congrArg Host.Outcome.next (State.checkFootprint_ok (by rw [blockLength]; omega) _)
  all_goals rfl

/-- Everything an instruction can do. -/
theorem exec_cases {i : Instr} {s t : State} (h : exec i s = .next t) :
    (FaultsOn s i ∧ t = s.raise (faultRecord s i)) ∨ (¬ FaultsOn s i ∧ t = completed s i) := by
  by_cases hf : FaultsOn s i
  · exact .inl ⟨hf, (Host.Outcome.next.inj ((exec_of_faultsOn hf).symm.trans h)).symm⟩
  · exact .inr ⟨hf, (Host.Outcome.next.inj ((exec_of_not_faultsOn hf).symm.trans h)).symm⟩

/-! STORE and LOAD, whose blocks are recursive: which fields they leave is not seen by evaluation. -/

theorem completed_store_eq (s : State) (x : Reg) :
    ∃ m, completed s (.store x) = { s.advance with mem := m, i := s.indexAfterBlock x } := by
  obtain ⟨m, hm⟩ := s.advance.storeRegs_eq s.i.toNat (blockLength x)
  exact ⟨m, by rw [completed, hm]; rfl⟩

theorem completed_load_eq (s : State) (x : Reg) :
    ∃ v, completed s (.load x) = { s.advance with v := v, i := s.indexAfterBlock x } := by
  obtain ⟨v, hv⟩ := s.advance.loadRegs_eq s.i.toNat (blockLength x)
  exact ⟨v, by rw [completed, hv]; rfl⟩

/-- A completing instruction leaves the fault record and the tick's own fields alone. -/
theorem keepsControl_completed (s : State) (i : Instr) : KeepsControl s (completed s i) := by
  cases i
  case store x =>
    obtain ⟨m, hm⟩ := completed_store_eq s x
    rw [hm]
    exact ⟨rfl, rfl, rfl, rfl, rfl, rfl⟩
  case load x =>
    obtain ⟨v, hv⟩ := completed_load_eq s x
    rw [hv]
    exact ⟨rfl, rfl, rfl, rfl, rfl, rfl⟩
  all_goals exact ⟨rfl, rfl, rfl, rfl, rfl, rfl⟩

/-- No instruction writes the configuration, the key mask or the batch position. -/
theorem exec_keeps {i : Instr} {s t : State} (h : exec i s = .next t) :
    t.cfg = s.cfg ∧ t.keys = s.keys ∧ t.tickPos = s.tickPos := by
  rcases exec_cases h with ⟨-, rfl⟩ | ⟨-, rfl⟩
  · exact ⟨rfl, rfl, rfl⟩
  · obtain ⟨hcfg, hkeys, -, hpos, -, -⟩ := keepsControl_completed s i
    exact ⟨hcfg, hkeys, hpos⟩

/-! Faults (R201 to R204). -/

/-- Settles O12: an instruction raises exactly on its condition, and a completing one leaves the record alone. -/
theorem faultsExactlyWhenStated : Obligations.FaultsExactlyWhenStated := by
  intro i s t hs h
  have hiff : t.fault ≠ none ↔ FaultsOn s i := by
    rcases exec_cases h with ⟨hf, rfl⟩ | ⟨hf, rfl⟩
    · simp [hf]
    · obtain ⟨-, -, hfault, -⟩ := keepsControl_completed s i
      simp [hf, hfault, hs]
  cases i <;> exact hiff

/-- Settles O13: each condition is that of `FaultsOn`, and `faultRecord` is the record it leaves. -/
theorem faultRecords : Obligations.FaultRecords := fun _ =>
  ⟨fun nnn h => exec_of_faultsOn (i := .call nnn) h, fun h => exec_of_faultsOn (i := .ret) h,
    fun x h => exec_of_faultsOn (i := .bcd x) h,
    fun x h => ⟨exec_of_faultsOn (i := .store x) h, exec_of_faultsOn (i := .load x) h⟩,
    fun x y n hpos hpass => exec_of_faultsOn (i := .draw x y n) ⟨hpos, hpass⟩⟩

/-! The writers of each element (spec/10_state.md R20, R22). -/

/-- ADDIDX leaves the registers alone where its quirk is off (R151). -/
theorem completed_addidx_v {s : State} (h : s.cfg.qIndexOvf = false) (x : Reg) : (completed s (.addidx x)).v = s.v := by
  have hflag : indexOverflow s.cfg (s.indexPlus x) = false := by simp [indexOverflow, h]
  show ((s.advance.setI (s.indexPlus x)).setV vf (if indexOverflow s.cfg (s.indexPlus x) then 1 else s.getV vf)).v = s.v
  rw [hflag, if_neg Bool.false_ne_true]
  exact (congrArg State.v (State.setV_getV_self (s.advance.setI (s.indexPlus x)) vf)).trans rfl

/-- Settles O49: instruction by instruction, each field that is not the field of one of its own updates is as before. -/
theorem elementsHaveTheirWriters : Obligations.ElementsHaveTheirWriters := fun i s t h => by
  obtain ⟨hcfg, hkeys, -⟩ := exec_keeps h
  rcases exec_cases h with ⟨-, rfl⟩ | ⟨-, rfl⟩
  · simp
  cases i
  case store x =>
    obtain ⟨m, hm⟩ := completed_store_eq s x
    simp [hm]
  case load x =>
    obtain ⟨v, hv⟩ := completed_load_eq s x
    simp [hv]
  case addidx x =>
    refine ⟨fun hv => ?_, by simp [completed, exec, execAddidx]⟩
    by_contra hq
    exact hv (completed_addidx_v (Bool.eq_false_iff.2 hq) x)
  case ret | call | draw | bcd => simp [completed, State.writeDigits]
  all_goals
    simp [completed, exec, execCls, execJp, execSkeq, execSkne, execSkreq, execSkrne, execJpoff, execSet, execAddi, execMov,
      execOr, execAnd, execXor, execAdd, execSub, execShr, execRsub, execShl, execRnd, execSeti, execFont, execSkp,
      execSknp, execGetdt, execWaitk, execSetdt, execSetst]

/-! What follows for one element at a time. -/

section
variable {i : Instr} {s t : State} (h : exec i s = .next t)
include h

theorem exec_disp (hd : t.disp ≠ s.disp) : i = .cls ∨ ∃ x y n, i = .draw x y n := by
  obtain ⟨-, -, -, -, -, -, hdisp, -⟩ := elementsHaveTheirWriters i s t h
  exact hdisp hd

theorem exec_mem (hm : t.mem ≠ s.mem) : ∃ x, i = .bcd x ∨ i = .store x := by
  obtain ⟨-, -, -, -, -, -, -, hmem, -⟩ := elementsHaveTheirWriters i s t h
  exact hmem hm

theorem exec_stack (hcall : ∀ nnn, i ≠ .call nnn) : t.stack = s.stack := by
  obtain ⟨-, -, hstack, -⟩ := elementsHaveTheirWriters i s t h
  by_contra hne
  obtain ⟨nnn, hi⟩ := hstack hne
  exact hcall nnn hi

theorem exec_sp (hcall : ∀ nnn, i ≠ .call nnn) (hret : i ≠ .ret) : t.sp = s.sp := by
  obtain ⟨-, -, -, hsp, -⟩ := elementsHaveTheirWriters i s t h
  by_contra hne
  rcases hsp hne with ⟨nnn, hi⟩ | hi
  · exact hcall nnn hi
  · exact hret hi

end

/-! VF (R22). -/

theorem flagByte_eq (b : Bool) : flagByte b = 0 ∨ flagByte b = 1 := by cases b <;> simp [flagByte]

/-- A write of one register changes VF only if it names VF. -/
theorem eq_vf_of_getV_setV_ne {s : State} {x : Reg} {b : Byte} (h : (s.setV x b).getV vf ≠ s.getV vf) : x = vf := by
  by_contra hx
  exact h (by rw [State.getV_setV, if_neg hx])

/-- The flag of a result and a flag is 0 or 1. -/
theorem getV_vf_setResultThenFlag (s : State) (x : Reg) (r : Byte) (b : Bool) :
    (s.setResultThenFlag x r (flagByte b)).getV vf = 0 ∨ (s.setResultThenFlag x r (flagByte b)).getV vf = 1 := by
  rw [State.getV_setResultThenFlag, if_pos rfl]
  exact flagByte_eq b

/-- ADDIDX sets VF to 1 or leaves it. -/
theorem getV_vf_completed_addidx (s : State) (x : Reg) :
    (completed s (.addidx x)).getV vf = 1 ∨ (completed s (.addidx x)).getV vf = s.getV vf := by
  have hflag : (completed s (.addidx x)).getV vf = if indexOverflow s.cfg (s.indexPlus x) then 1 else s.getV vf :=
    State.getV_setV_self _ vf _
  rw [hflag]
  split_ifs
  · exact .inl rfl
  · exact .inr rfl

/-- LOAD Vx in the registers: the block up to X, and the others as before. -/
theorem getV_completed_load (s : State) (x k : Reg) :
    (completed s (.load x)).getV k = if k.toNat ≤ x.toNat then s.readByte (s.i.toNat + k.toNat) else s.getV k := by
  have hlen : blockLength x ≤ 16 := x.isLt
  rw [completed, State.getV_setI, State.getV_loadRegs _ _ hlen, State.readByte_advance, State.getV_advance]
  simp only [blockLength, Nat.lt_succ_iff]

/-- Settles O50: the flag writers leave a flag's byte, ADDIDX leaves 1 if anything, and any other instruction writes registers
its operand names. -/
theorem vfHasItsWriters : Obligations.VfHasItsWriters := fun i s t h (hvf : t.getV vf ≠ s.getV vf) => by
  obtain ⟨hv, -⟩ := elementsHaveTheirWriters i s t h
  replace hv := hv fun hs => hvf (by rw [State.getV, State.getV, hs])
  rcases exec_cases h with ⟨-, rfl⟩ | ⟨-, rfl⟩
  · exact absurd rfl hvf
  cases i
  case add x y | sub x y | rsub x y | shr x y | shl x y =>
    exact .inl ⟨getV_vf_setResultThenFlag _ _ _ _, .inl ⟨x, y, by simp⟩⟩
  case draw x y n =>
    have hflag : (completed s (.draw x y n)).getV vf = flagByte _ := State.getV_setV_self _ vf _
    exact .inl ⟨hflag ▸ flagByte_eq _, .inr (.inl ⟨x, y, n, rfl⟩)⟩
  case addidx x =>
    have hone := (getV_vf_completed_addidx s x).resolve_right hvf
    exact .inl ⟨.inr hone, .inr (.inr ⟨x, rfl, hv, hone⟩)⟩
  case load x =>
    obtain rfl : x = vf := by
      by_contra hx
      have hlt : ¬ (vf : Reg).toNat ≤ x.toNat := fun hle => hx (by bv_omega)
      exact hvf (by rw [getV_completed_load, if_neg hlt])
    simp
  case set x nn | addi x nn | rnd x nn =>
    obtain rfl := eq_vf_of_getV_setV_ne hvf
    exact .inr (.inl ⟨nn, by simp⟩)
  case mov x y | or x y | and x y | xor x y =>
    obtain rfl := eq_vf_of_getV_setV_ne hvf
    exact .inr (.inr (.inl ⟨y, by simp⟩))
  case getdt x | waitk x =>
    obtain rfl := eq_vf_of_getV_setV_ne hvf
    simp
  all_goals exact hv.elim

end Sys2Proof.Machine
end

section
/-! PROOFS. The step (spec/40_execution_cycle.md R90 to R101): which of its paths is taken, and what no step changes. -/

namespace Sys2Proof.Machine

open Sys2Proof Sys2Proof.Safety

/-! The paths of Step and of the machine's step. -/

section
variable {s t : State} {w : Word} {i : Instr}

theorem stepInstr_of_fault (h : s.fault ≠ none) : stepInstr s = .next s := if_pos (Option.isSome_iff_ne_none.2 h)

theorem stepInstr_of_not_fault (h : s.fault = none) : stepInstr s = fetchExecute s := if_neg (by simp [h])

theorem stepInstr_of_no_fetch (hf : s.fault = none) (hw : s.fetch = none) :
    stepInstr s = .next (s.raise (.fetchOutOfBounds s.pc)) := by
  rw [stepInstr_of_not_fault hf, fetchExecute, hw]

theorem stepInstr_of_decode (hf : s.fault = none) (hw : s.fetch = some w) (hd : decode w = .ok i) :
    stepInstr s = exec i s := by
  rw [stepInstr_of_not_fault hf, fetchExecute, hw]
  simp only [execWord, hd]

theorem stepInstr_of_unknown {r : Reject} (hf : s.fault = none) (hw : s.fetch = some w) (hd : decode w = .error r) :
    stepInstr s = .next s.advance := by
  rw [stepInstr_of_not_fault hf, fetchExecute, hw]
  simp only [execWord, hd, execUnknown]

/-- A Step whose instruction is known. -/
theorem stepInstr_of_fetch_map (hf : s.fault = none) (hw : s.fetch.map decode = some (.ok i)) :
    stepInstr s = exec i s := by
  obtain ⟨w, hw, hd⟩ := Option.map_eq_some_iff.1 hw
  exact stepInstr_of_decode hf hw hd

theorem step_of_fault (h : s.fault ≠ none) : step s = .next s := if_pos (Option.isSome_iff_ne_none.2 h)

theorem step_of_stepInstr {u : State} (hf : s.fault = none) (h : stepInstr s.beginStep = .next u) :
    step s = .next u.endStep := by
  rw [step, if_neg (by simp [hf]), h]

theorem tick_of_fault (k : Word) (h : s.fault ≠ none) : tick k s = .next s := if_pos (Option.isSome_iff_ne_none.2 h)

/-- A step whose Step raised a fault ends with it. -/
theorem State.endStep_raise (s : State) (f : Fault) : (s.raise f).endStep = s.raise f :=
  State.endStep_of_fault (Option.some_ne_none f)

theorem decode_error_of_not_ok (h : ∀ i, decode w ≠ .ok i) : ∃ r, decode w = .error r := by
  cases hd : decode w with
  | ok i => exact absurd hd (h i)
  | error r => exact ⟨r, rfl⟩

end

/-- Settles O5: the three tests of a step all pass, and `exec` answers. -/
theorem stepRunsDecodedInstruction : Obligations.StepRunsDecodedInstruction := by
  intro s t i hf hpc hd h
  have hw : s.beginStep.fetch = some _ := s.fetch_beginStep.trans (State.fetch_eq_some hpc)
  exact step_of_stepInstr hf ((stepInstr_of_decode (by simpa using hf) hw hd).trans h)

/-- Settles O9: there is no fetch at these addresses, and the fault ends the tick. -/
theorem fetchBeyondMemoryFaults : Obligations.FetchBeyondMemoryFaults := by
  intro s hf hpc
  have hw : s.beginStep.fetch = none := s.fetch_beginStep.trans (State.fetch_eq_none hpc)
  have hstep := step_of_stepInstr hf (stepInstr_of_no_fetch (by simpa using hf) hw)
  rw [State.endStep_raise, State.beginStep_pc] at hstep
  exact hstep

/-! The diagnostic event (R94, R99). -/

theorem State.diag_eq_some_iff (s : State) (a w : Word) :
    s.diag = some (.unknownOpcode a w) ↔ s.fault = none ∧ s.fetch = some w ∧ a = s.pc ∧ ∀ i, decode w ≠ .ok i := by
  unfold State.diag
  cases hf : s.fault with
  | some f => simp
  | none =>
    cases hw : s.fetch with
    | none => simp
    | some v =>
      cases hd : decode v with
      | ok i =>
        have hno : v = w → ¬ ∀ i, decode w ≠ .ok i := fun hv h => h i (hv ▸ hd)
        simpa [hd] using fun hv _ => by simpa using hno hv
      | error r =>
        have hyes : v = w → ∀ i, decode w ≠ .ok i := fun hv i h => by rw [← hv, hd] at h; cases h
        simp only [hd, Option.isSome_none, Bool.false_eq_true, if_false, Option.some.injEq, Diag.unknownOpcode.injEq,
          true_and, eq_comm (a := s.pc)]
        tauto

theorem State.fetch_eq_some_iff (s : State) (w : Word) :
    s.fetch = some w ↔
      s.pc.toNat ≤ 0x0FFE ∧ w = wordOfBytes (s.readByte s.pc.toNat) (s.readByte (s.pc.toNat + 1)) := by
  by_cases hpc : s.pc.toNat ≤ 0x0FFE
  · simp [State.fetch_eq_some hpc, hpc, eq_comm]
  · simp [State.fetch_eq_none (s := s) (by omega), hpc]

/-- Settles O7: the event's own test is the fetch's and the decoder's. -/
theorem diagReportsUnknownWords : Obligations.DiagReportsUnknownWords := by
  intro s a w
  rw [State.diag_eq_some_iff, State.fetch_eq_some_iff]
  tauto

/-- Settles O6: a rejected word is the advance alone. -/
theorem unknownWordIsNoOp : Obligations.UnknownWordIsNoOp := by
  intro s w hf hpc hw hno
  obtain ⟨r, hd⟩ := decode_error_of_not_ok hno
  have hfetch : s.fetch = some w := (s.fetch_eq_some_iff w).2 ⟨hpc, hw⟩
  have hstep := step_of_stepInstr hf
    (stepInstr_of_unknown (by simpa using hf) (s.fetch_beginStep.trans hfetch) hd)
  have hadv : s.beginStep.advance = { s.beginStep with pc := s.pc + 2 } := by rw [← s.beginStep_pc]; rfl
  exact ⟨hadv ▸ hstep, (s.diag_eq_some_iff s.pc w).2 ⟨hf, hfetch, rfl, hno⟩⟩

/-- Settles O10: each of the three tests the record first. -/
theorem faultedStateIsAbsorbing : Obligations.FaultedStateIsAbsorbing := fun _ h =>
  ⟨step_of_fault h, fun k => tick_of_fault k h, if_pos (Option.isSome_iff_ne_none.2 h)⟩

/-! What a Step does to the record, and what it never changes. -/

section
variable {s t : State} (h : stepInstr s = .next t)
include h

/-- A Step that leaves a record from a state with none has changed nothing else. -/
theorem stepInstr_fault {f : Fault} (hs : s.fault = none) (ht : t.fault = some f) : t = s.raise f := by
  have key : ∀ f', t = s.raise f' → t = s.raise f := fun f' hr => by
    rw [hr, State.raise_fault] at ht
    rw [hr, Option.some.inj ht]
  rcases stepInstr_cases h with ⟨hne, -⟩ | ⟨-, -, hr⟩ | ⟨-, w, r, -, -, rfl⟩ | ⟨-, w, i, -, -, he⟩
  · exact absurd hs hne
  · exact key _ hr
  · rw [State.advance_fault, hs] at ht
    cases ht
  · rcases exec_fault_cases he with hk | ⟨f', hr⟩
    · rw [hk, hs] at ht
      cases ht
    · exact key _ hr

/-- No Step writes the configuration, the key mask or the batch position. -/
theorem stepInstr_keeps : t.cfg = s.cfg ∧ t.keys = s.keys ∧ t.tickPos = s.tickPos := by
  rcases stepInstr_cases h with ⟨-, rfl⟩ | ⟨-, -, rfl⟩ | ⟨-, w, r, -, -, rfl⟩ | ⟨-, w, i, -, -, he⟩
  · exact ⟨rfl, rfl, rfl⟩
  · exact ⟨rfl, rfl, rfl⟩
  · exact ⟨rfl, rfl, rfl⟩
  · exact exec_keeps he

/-- A Step that changes the display runs CLS or DRAW. -/
theorem stepInstr_disp (hd : t.disp ≠ s.disp) :
    s.fetch.map decode = some (.ok .cls) ∨ ∃ x y n, s.fetch.map decode = some (.ok (.draw x y n)) := by
  rcases stepInstr_cases h with ⟨-, rfl⟩ | ⟨-, -, rfl⟩ | ⟨-, w, r, -, -, rfl⟩ | ⟨-, w, i, hw, hdec, he⟩
  · exact absurd rfl hd
  · exact absurd rfl hd
  · exact absurd rfl hd
  · rw [hw, Option.map_some, hdec]
    rcases exec_disp he hd with rfl | ⟨x, y, n, rfl⟩
    · exact .inl rfl
    · exact .inr ⟨x, y, n, rfl⟩

end

/-- Settles O11: the record comes from the Step, and its fault ends the step. -/
theorem faultsArePrecise : Obligations.FaultsArePrecise := by
  intro s t f hf h ht
  rcases step_cases h with ⟨hne, -⟩ | ⟨-, u, hu, rfl⟩
  · exact absurd hf hne
  · rw [State.endStep_fault] at ht
    rw [stepInstr_fault hu (by simpa using hf) ht, State.endStep_raise]
    rfl

/-- Settles O44: the tick's start sets KEYS, and neither the Step nor the tick's end writes it. -/
theorem keysChangeOnlyAtTickStart : Obligations.KeysChangeOnlyAtTickStart := by
  intro s t hf h
  rcases step_cases h with ⟨hne, -⟩ | ⟨-, u, hu, rfl⟩
  · exact absurd hf hne
  · obtain ⟨-, hkeys, -⟩ := stepInstr_keeps hu
    rw [State.endStep_keys, hkeys, State.beginStep_keys, State.nextMask]

/-- Settles O51: the ends of a tick leave the display alone, so the Step changed it. -/
theorem displayChangesOnlyByDrawAndCls : Obligations.DisplayChangesOnlyByDrawAndCls := by
  intro s t h hd
  rcases step_cases h with ⟨-, rfl⟩ | ⟨-, u, hu, rfl⟩
  · exact absurd rfl hd
  · rw [← s.fetch_beginStep]
    exact stepInstr_disp hu (by simpa using hd)

/-! The end of a step (R95, R97). -/

/-- One timer's count, clamped at 0. -/
theorem toNat_countDown (b : Byte) : (countDown b).toNat = b.toNat - 1 := by
  unfold countDown
  split_ifs with h
  · simp [h]
  · bv_omega

theorem State.endStep_of_last {s : State} (hf : s.fault = none) (h : s.tickPos + 1 = s.cfg.ipf) :
    s.endStep = { s.countTimers with tickPos := 0 } := by
  rw [State.endStep, if_neg (by simp [hf]), if_pos (by simp [State.lastOfTick, h])]

theorem State.endStep_of_not_last {s : State} (hf : s.fault = none) (h : s.tickPos + 1 < s.cfg.ipf) :
    s.endStep = { s with tickPos := s.tickPos + 1 } := by
  rw [State.endStep, if_neg (by simp [hf]), if_neg (by simp [State.lastOfTick, h])]

/-- Settles O45: the Step leaves the batch position, so the step's end sees the one the step began with. -/
theorem timersCountAtTickEnd : Obligations.TimersCountAtTickEnd := by
  intro s u hf hpos hu huf
  obtain ⟨hcfg, -, hupos⟩ := stepInstr_keeps hu
  rw [State.beginStep_cfg] at hcfg
  rw [State.beginStep_tickPos] at hupos
  refine ⟨_, step_of_stepInstr hf hu, fun hlast => ?_, fun hmid => ?_⟩
  · rw [State.endStep_of_last huf (by rw [hupos, hcfg, hlast])]
    exact ⟨toNat_countDown _, toNat_countDown _, rfl⟩
  · rw [State.endStep_of_not_last huf (by rw [hupos, hcfg]; omega), hupos]
    exact ⟨rfl, rfl, rfl⟩

/-! The batch and the tick (R95). -/

/-- What the end of Tick does to the state its batch leaves: the timers count, unless a fault ended the batch. -/
def State.endTick (s : State) : State := if s.fault.isSome then s else s.countTimers

theorem State.endTick_of_fault {s : State} (h : s.fault ≠ none) : s.endTick = s :=
  if_pos (Option.isSome_iff_ne_none.2 h)

theorem State.endTick_of_not_fault {s : State} (h : s.fault = none) : s.endTick = s.countTimers := if_neg (by simp [h])

theorem runBatch_succ {s u : State} (h : stepInstr s = .next u) (n : Nat) :
    runBatch (n + 1) s = if u.fault.isSome then .next u else runBatch n u := by
  rw [runBatch, h]

/-- A batch answers a next state. -/
theorem runBatch_next (n : Nat) (s : State) : ∃ t, runBatch n s = .next t := by
  induction n generalizing s with
  | zero => exact ⟨s, rfl⟩
  | succ n ih =>
    obtain ⟨u, hu⟩ := stepInstr_next s
    rw [runBatch_succ hu]
    split_ifs
    · exact ⟨u, rfl⟩
    · exact ih u

/-- What every Step keeps, a batch keeps. -/
theorem runBatch_keeps {P : State → Prop} (hstep : ∀ s t, P s → stepInstr s = .next t → P t) {n : Nat} {s t : State}
    (hs : P s) (h : runBatch n s = .next t) : P t := by
  induction n generalizing s with
  | zero =>
    cases h
    exact hs
  | succ n ih =>
    obtain ⟨u, hu⟩ := stepInstr_next s
    have hPu := hstep s u hs hu
    rw [runBatch_succ hu] at h
    split_ifs at h
    · cases h
      exact hPu
    · exact ih hPu h

/-- The state a tick's batch starts in: KEYS is the host's mask (R96). -/
def State.setKeys (s : State) (k : Word) : State := { s with keys := k }

theorem tick_of_runBatch {k : Word} {s u : State} (hf : s.fault = none)
    (h : runBatch s.cfg.ipf (s.setKeys k) = .next u) : tick k s = .next u.endTick := by
  rw [State.setKeys] at h
  rw [tick, if_neg (by simp [hf]), h]
  rfl

/-- Everything a Tick can do: nothing in a faulted state, else a batch and the timers' count. -/
theorem tick_cases {k : Word} {s t : State} (h : tick k s = .next t) :
    (s.fault ≠ none ∧ t = s) ∨
    (s.fault = none ∧ ∃ u, runBatch s.cfg.ipf (s.setKeys k) = .next u ∧ t = u.endTick) := by
  by_cases hf : s.fault = none
  · obtain ⟨u, hu⟩ := runBatch_next s.cfg.ipf (s.setKeys k)
    exact .inr ⟨hf, u, hu, (Host.Outcome.next.inj ((tick_of_runBatch hf hu).symm.trans h)).symm⟩
  · exact .inl ⟨hf, (Host.Outcome.next.inj ((tick_of_fault k hf).symm.trans h)).symm⟩

@[simp] theorem State.endTick_cfg (s : State) : s.endTick.cfg = s.cfg := by unfold State.endTick; split_ifs <;> rfl

/-- Settles O8: a Step answers a next state, hence a step and a batch do. -/
theorem stepAndTickAreTotal : Obligations.StepAndTickAreTotal := by
  intro s
  by_cases hf : s.fault = none
  · obtain ⟨u, hu⟩ := stepInstr_next s.beginStep
    refine ⟨⟨_, step_of_stepInstr hf hu⟩, fun k => ?_⟩
    obtain ⟨v, hv⟩ := runBatch_next s.cfg.ipf (s.setKeys k)
    exact ⟨_, tick_of_runBatch hf hv⟩
  · exact ⟨⟨s, step_of_fault hf⟩, fun k => ⟨s, tick_of_fault k hf⟩⟩

/-- Settles O53: no Step writes the configuration, so no batch does. -/
theorem configurationIsImmutable : Obligations.ConfigurationIsImmutable := by
  refine fun s t => ⟨fun h => ?_, fun k h => ?_⟩
  · rcases step_cases h with ⟨-, rfl⟩ | ⟨-, u, hu, rfl⟩
    · rfl
    · obtain ⟨hcfg, -⟩ := stepInstr_keeps hu
      rw [State.endStep_cfg, hcfg, State.beginStep_cfg]
  · rcases tick_cases h with ⟨-, rfl⟩ | ⟨-, u, hu, rfl⟩
    · rfl
    · rw [State.endTick_cfg]
      refine runBatch_keeps (P := fun u => u.cfg = s.cfg) (fun v w hv hw => ?_) (rfl : (s.setKeys k).cfg = s.cfg) hu
      obtain ⟨hcfg, -⟩ := stepInstr_keeps hw
      exact hcfg.trans hv

/-! Ticks in which every Step answers the state it began in (R238, R240). -/

theorem runBatch_of_fixed {s : State} (hf : s.fault = none) (h : stepInstr s = .next s) (n : Nat) :
    runBatch n s = .next s := by
  induction n with
  | zero => rfl
  | succ n ih => rw [runBatch_succ h, if_neg (by simp [hf]), ih]

theorem countDown_eq_ofNat (b : Byte) : countDown b = BitVec.ofNat 8 (b.toNat - 1) := by
  rw [← toNat_countDown, BitVec.ofNat_toNat, BitVec.setWidth_eq]

/-- A Tick whose Step is at a fixed point latches KEYS and counts the timers. -/
theorem tick_of_fixed {k : Word} {s : State} (hf : s.fault = none)
    (h : stepInstr (s.setKeys k) = .next (s.setKeys k)) :
    tick k s = .next { s with
      keys := k, dt := BitVec.ofNat 8 (s.dt.toNat - 1), st := BitVec.ofNat 8 (s.st.toNat - 1) } := by
  have hk : (s.setKeys k).fault = none := hf
  rw [tick_of_runBatch hf (runBatch_of_fixed hk h _), State.endTick_of_not_fault hk, State.countTimers,
    countDown_eq_ofNat, countDown_eq_ofNat]
  rfl

/-- Settles O47: a WAITK with no key held answers its own state. -/
theorem waitkOccupiesTheTick : Obligations.WaitkOccupiesTheTick := by
  intro x s hf hw
  have hstep : stepInstr (s.setKeys 0) = exec (.waitk x) (s.setKeys 0) := stepInstr_of_fetch_map hf hw
  exact tick_of_fixed hf (hstep.trans (exec_waitk_of_no_key x rfl))

/-- Settles O48: a jump to its own address answers its own state. -/
theorem selfJumpIsStable : Obligations.SelfJumpIsStable := by
  intro k nnn s hf hpc hw
  have haddr : addrOf nnn = s.pc := BitVec.eq_of_toNat_eq ((toNat_addrOf nnn).trans hpc)
  have hstep : stepInstr (s.setKeys k) = exec (.jp nnn) (s.setKeys k) := stepInstr_of_fetch_map hf hw
  refine tick_of_fixed hf (hstep.trans ?_)
  rw [exec_jp, haddr]
  rfl

end Sys2Proof.Machine
end

section
/-! PROOFS. pc after a step (spec/10_state.md R24), and the machine's invariant (R25, R26, R50, R54) under a step and a tick. -/

namespace Sys2Proof.Machine

open Sys2Proof Sys2Proof.Safety

/-- The rule's table: pc after an instruction that completes under a key mask. -/
def pcAfter (s : State) (keys : Word) : Instr → Word
  | .jp nnn | .call nnn => BitVec.ofNat 16 nnn.toNat
  | .ret => s.stackAt (s.sp - 1)
  | .jpoff nnn =>
    BitVec.ofNat 16 (nnn.toNat +
      (if s.cfg.qJumpVx then s.getV (BitVec.ofNat 4 (nnn.toNat / 256)) else s.getV 0).toNat)
  | .skeq x nn => if s.getV x = nn then s.pc + 4 else s.pc + 2
  | .skne x nn => if s.getV x = nn then s.pc + 2 else s.pc + 4
  | .skreq x y => if s.getV x = s.getV y then s.pc + 4 else s.pc + 2
  | .skrne x y => if s.getV x = s.getV y then s.pc + 2 else s.pc + 4
  | .skp x => if keybit keys (s.getV x) then s.pc + 4 else s.pc + 2
  | .sknp x => if keybit keys (s.getV x) then s.pc + 2 else s.pc + 4
  | .waitk _ => if keys = 0 then s.pc else s.pc + 2
  | _ => s.pc + 2

theorem addrOf_eq_ofNat (nnn : Addr12) : addrOf nnn = BitVec.ofNat 16 nnn.toNat := by
  rw [← toNat_addrOf, BitVec.ofNat_toNat, BitVec.setWidth_eq]

theorem addrOf_add_zextByte_eq_ofNat (nnn : Addr12) (b : Byte) :
    addrOf nnn + zextByte b = BitVec.ofNat 16 (nnn.toNat + b.toNat) := by
  rw [← toNat_addrOf_add_zextByte, BitVec.ofNat_toNat, BitVec.setWidth_eq]

theorem completed_pc (s : State) (i : Instr) : (completed s i).pc = pcAfter s s.keys i := by
  cases i
  case jp nnn | call nnn => exact addrOf_eq_ofNat nnn
  case jpoff nnn =>
    show addrOf nnn + zextByte (s.jumpOffset nnn) = _
    rw [addrOf_add_zextByte_eq_ofNat, jumpOffset_eq]
    rfl
  case skeq | skne | skreq | skrne | skp => exact (pc_advance_skipIf s _).trans (by simp [pcAfter])
  case sknp x =>
    refine (pc_advance_skipIf s _).trans ?_
    cases hkey : keybit s.keys (s.getV x) <;> simp [pcAfter, hkey]
  case waitk x =>
    show (if s.keys = 0 then s.pc + 2 - 2 else s.pc + 2) = _
    rw [BitVec.add_sub_cancel]
    rfl
  case store x =>
    obtain ⟨m, hm⟩ := completed_store_eq s x
    rw [hm]
    rfl
  case load x =>
    obtain ⟨v, hv⟩ := completed_load_eq s x
    rw [hv]
    rfl
  all_goals rfl

theorem pcAfter_beginStep (s : State) (keys : Word) (i : Instr) : pcAfter s.beginStep keys i = pcAfter s keys i := by
  cases i <;> simp [pcAfter]

/-- Settles O29: a fault keeps pc, an UNKNOWN word advances, and a completing instruction follows the table. -/
theorem pcAfterEveryStep : Obligations.PcAfterEveryStep := by
  intro s t w hf hw h
  refine ⟨fun ht => ?_, fun ht => ?_⟩
  · obtain ⟨f, ht⟩ := Option.ne_none_iff_exists'.1 ht
    rw [faultsArePrecise s t f hf h ht]
    exact s.beginStep_pc
  rcases step_cases h with ⟨hne, -⟩ | ⟨-, u, hu, rfl⟩
  · exact absurd hf hne
  rw [State.endStep_fault] at ht
  rw [State.endStep_pc, State.endStep_keys]
  cases hd : decode w with
  | error r =>
    rw [stepInstr_of_unknown (by simpa using hf) (s.fetch_beginStep.trans hw) hd] at hu
    cases hu
    exact congrArg (· + 2) s.beginStep_pc
  | ok i =>
    rw [stepInstr_of_decode (by simpa using hf) (s.fetch_beginStep.trans hw) hd] at hu
    obtain ⟨-, hkeys, -⟩ := exec_keeps hu
    rcases exec_cases hu with ⟨-, rfl⟩ | ⟨-, rfl⟩
    · cases ht
    have hpc := completed_pc s.beginStep i
    rw [← hkeys, pcAfter_beginStep] at hpc
    cases i <;> exact hpc

/-! The parts of the invariant under an instruction. -/

theorem stackAt_le {s : State} (h : ∀ w ∈ s.stack, w.toNat ≤ 0x1000) (j : Nat) : (s.stackAt j).toNat ≤ 0x1000 := by
  by_cases hj : j < s.stack.length
  · rw [State.stackAt, List.getD_eq_getElem _ _ hj]
    exact h _ (List.getElem_mem hj)
  · rw [State.stackAt, List.getD_eq_default _ _ (by omega)]
    decide

/-- From a fetched address, with a well-formed stack, the table stays at or below 0x10FE (R25). -/
theorem pcAfter_le {s : State} (hpc : s.pc.toNat ≤ 0x0FFE) (hstack : ∀ w ∈ s.stack, w.toNat ≤ 0x1000) (keys : Word)
    (i : Instr) : (pcAfter s keys i).toNat ≤ 0x10FE := by
  have h₂ : (s.pc + 2).toNat = s.pc.toNat + 2 := by bv_omega
  have h₄ : (s.pc + 4).toNat = s.pc.toNat + 4 := by bv_omega
  cases i
  case jp nnn | call nnn =>
    show (BitVec.ofNat 16 nnn.toNat).toNat ≤ _
    rw [← addrOf_eq_ofNat, toNat_addrOf]
    omega
  case ret => exact (stackAt_le hstack _).trans (by decide)
  case jpoff nnn =>
    show (BitVec.ofNat 16 (nnn.toNat + _)).toNat ≤ _
    rw [← addrOf_add_zextByte_eq_ofNat, toNat_addrOf_add_zextByte]
    omega
  case skeq | skne | skreq | skrne | skp | sknp | waitk =>
    rw [pcAfter]
    split_ifs <;> omega
  all_goals
    show (s.pc + 2).toNat ≤ 0x10FE
    omega

section
variable {i : Instr} {s t : State} (h : exec i s = .next t)
include h

theorem exec_memoryWf (hs : MemoryWf s) : MemoryWf t := by
  obtain ⟨hcfg, -, -⟩ := exec_keeps h
  by_cases hmem : t.mem = s.mem
  · rw [MemoryWf, hmem, hcfg]
    exact hs
  rcases exec_cases h with ⟨-, rfl⟩ | ⟨hfit, rfl⟩
  · exact hs
  obtain ⟨x, rfl | rfl⟩ := exec_mem h hmem
  · have hi : ¬ 4095 < s.i.toNat + 2 := hfit
    exact State.wf_writeDigits (s := s.advance) hs (by simpa using hi) _
  · have hi : ¬ 4095 < s.i.toNat + x.toNat := hfit
    rw [MemoryWf, hcfg]
    exact State.wf_storeRegs (s := s.advance) hs (by rw [blockLength]; omega)

theorem exec_stackWf (hpc : s.pc.toNat ≤ 0x0FFE) (hs : StackWf s) : StackWf t := by
  obtain ⟨hcfg, -, -⟩ := exec_keeps h
  obtain ⟨hlen, hsp, hslots⟩ := hs
  rcases exec_cases h with ⟨-, rfl⟩ | ⟨hfit, rfl⟩
  · exact ⟨hlen, hsp, hslots⟩
  cases i
  case call nnn =>
    have hfree : s.sp ≠ s.cfg.stackDepth := hfit
    refine ⟨(List.length_set ..).trans hlen, by show s.sp + 1 ≤ s.cfg.stackDepth; omega, fun w hw => ?_⟩
    rcases List.mem_or_eq_of_mem_set hw with hw | rfl
    · exact hslots w hw
    · show (s.pc + 2).toNat ≤ 0x1000
      bv_omega
  case ret => exact ⟨hlen, (Nat.sub_le _ _).trans hsp, hslots⟩
  all_goals
    rw [StackWf, exec_stack h (by simp), exec_sp h (by simp) (by simp), hcfg]
    exact ⟨hlen, hsp, hslots⟩

theorem exec_inv (hpc : s.pc.toNat ≤ 0x0FFE) (hs : Inv s) : Inv t := by
  obtain ⟨hc, hm, hst, hp, hb⟩ := hs
  obtain ⟨hcfg, -, hpos⟩ := exec_keeps h
  obtain ⟨-, -, hslots⟩ := id hst
  refine ⟨hcfg.symm ▸ hc, exec_memoryWf h hm, exec_stackWf h hpc hst, ?_, by rw [BatchWf, hcfg, hpos]; exact hb⟩
  rcases exec_cases h with ⟨-, rfl⟩ | ⟨-, rfl⟩
  · exact hp
  · rw [PcWf, completed_pc]
    exact pcAfter_le hpc hslots _ i

end

/-! The invariant under a Step, a step and a tick. -/

theorem stepInstr_inv {s t : State} (hs : Inv s) (h : stepInstr s = .next t) : Inv t := by
  rcases stepInstr_cases h with ⟨-, rfl⟩ | ⟨-, -, rfl⟩ | ⟨-, w, r, hw, -, rfl⟩ | ⟨-, w, i, hw, -, he⟩
  · exact hs
  · exact hs
  · obtain ⟨hc, hm, hst, -, hb⟩ := hs
    have hpc := State.pc_le_of_fetch hw
    exact ⟨hc, hm, hst, by show (s.pc + 2).toNat ≤ 0x10FE; bv_omega, hb⟩
  · exact exec_inv he (State.pc_le_of_fetch hw) hs

theorem beginStep_inv {s : State} (hs : Inv s) : Inv s.beginStep := by
  unfold State.beginStep
  split_ifs
  · exact hs
  · exact hs

theorem endStep_inv {s : State} (hs : Inv s) : Inv s.endStep := by
  obtain ⟨hc, hm, hst, hp, hb⟩ := hs
  by_cases hf : s.fault = none
  · by_cases hlast : s.tickPos + 1 = s.cfg.ipf
    · rw [State.endStep_of_last hf hlast]
      exact ⟨hc, hm, hst, hp, (Nat.zero_le _).trans_lt hb⟩
    · have hmid : s.tickPos + 1 < s.cfg.ipf := lt_of_le_of_ne hb hlast
      rw [State.endStep_of_not_last hf hmid]
      exact ⟨hc, hm, hst, hp, hmid⟩
  · rw [State.endStep_of_fault hf]
    exact ⟨hc, hm, hst, hp, hb⟩

/-- Settles O54: the two ends of a tick and the Step between them each keep the invariant. -/
theorem stepKeepsTheMachineInvariant : Obligations.StepKeepsTheMachineInvariant := by
  intro s t hs h
  rcases step_cases h with ⟨-, rfl⟩ | ⟨-, u, hu, rfl⟩
  · exact hs
  · exact endStep_inv (stepInstr_inv (beginStep_inv hs) hu)

theorem endTick_inv {s : State} (hs : Inv s) : Inv s.endTick := by
  unfold State.endTick
  split_ifs
  · exact hs
  · exact hs

/-- Settles O55: every Step of the batch keeps the invariant. -/
theorem tickKeepsTheMachineInvariant : Obligations.TickKeepsTheMachineInvariant := by
  intro k s t hs h
  rcases tick_cases h with ⟨-, rfl⟩ | ⟨-, u, hu, rfl⟩
  · exact hs
  · have hk : Inv (s.setKeys k) := hs
    exact endTick_inv (runBatch_keeps (fun _ _ => stepInstr_inv) hk hu)

/-! Construction (R36). -/

/-- Settles O58: memory lists nothing, and every slot holds 0. -/
theorem constructionMeetsTheInvariant : Obligations.ConstructionMeetsTheInvariant := by
  intro c hc
  obtain ⟨-, hipf, -⟩ := id hc
  have hslots : ∀ w ∈ List.replicate c.stackDepth (0 : Word), w.toNat ≤ 0x1000 := fun w hw => by
    rw [List.eq_of_mem_replicate hw]
    decide
  exact ⟨hc, Memory.wf_nil c, ⟨List.length_replicate, Nat.zero_le _, hslots⟩, (by decide : (0x200 : Word).toNat ≤ 0x10FE), hipf⟩

/-- Settles O57: each element is the constant the constructor gives it; a byte of empty memory is the font's or 0. -/
theorem constructionGivesResetValues : Obligations.ConstructionGivesResetValues := by
  intro c hc
  have hread : ∀ a, (State.construct c).readByte a = resetByte c a := Memory.read_nil c
  refine ⟨fun x => ?_, rfl, rfl, List.length_replicate, fun j => ?_, rfl, rfl, rfl, Display.cell_clear, fun k hk => ?_,
    fun a ha => ?_, rfl, rfl, rfl⟩
  · simp [State.getV, State.construct]
  · simp [State.stackAt, State.construct]
  · rw [hread, resetByte, if_pos (Nat.le_add_right _ _), Nat.add_sub_cancel_left]
    simp [hk]
  · rw [hread, resetByte]
    split_ifs with hbase
    · exact List.getD_eq_default _ _ (by rw [Vector.length_toList]; omega)
    · rfl

end Sys2Proof.Machine
end

section
/-! PROOFS. What an instruction does not read: the stack's slots (but for CALL and RET), the draws to come (but for RND) and the
tick's own fields pass through it untouched. From this follow the noninterference statements and that a budget of steps is a
tick (spec/10_state.md R26; spec/40_execution_cycle.md R95, R101). -/

namespace Sys2Proof.Machine

open Sys2Proof Sys2Proof.Safety

/-- A change of the fields that instructions carry along. -/
structure Carry where
  stack : List Word → List Word := id
  tickPos : Nat → Nat := id
  ticks : Nat → Nat := id
  hostMasks : List Word → List Word := id
  draws : Nat → Nat := id

/-- The change made to a state. -/
def State.recarry (c : Carry) (s : State) : State :=
  { s with stack := c.stack s.stack, tickPos := c.tickPos s.tickPos, ticks := c.ticks s.ticks,
           hostMasks := c.hostMasks s.hostMasks, draws := c.draws s.draws }

section
variable (c : Carry) (s : State)

theorem blitRows_recarry (x0 y0 rows : Nat) : (s.recarry c).blitRows x0 y0 rows = s.blitRows x0 y0 rows := by
  induction rows with
  | zero => rfl
  | succ r ih =>
    rw [State.blitRows, ih]
    rfl

theorem storeRegs_recarry (base n : Nat) : (s.recarry c).storeRegs base n = (s.storeRegs base n).recarry c := by
  induction n with
  | zero => rfl
  | succ n ih =>
    rw [State.storeRegs, ih]
    rfl

theorem loadRegs_recarry (base n : Nat) : (s.recarry c).loadRegs base n = (s.loadRegs base n).recarry c := by
  induction n with
  | zero => rfl
  | succ n ih =>
    rw [State.loadRegs, ih]
    rfl

theorem faultsOn_recarry (i : Instr) : FaultsOn (s.recarry c) i ↔ FaultsOn s i := by cases i <;> exact Iff.rfl

theorem faultRecord_recarry (i : Instr) : faultRecord (s.recarry c) i = faultRecord s i := by cases i <;> rfl

end

/-- An instruction with a change it does not see completes with the same change. -/
theorem completed_recarry {c : Carry} {i : Instr} (hstack : (∃ nnn, i = .call nnn) ∨ i = .ret → c.stack = id)
    (hdraws : (∃ x nn, i = .rnd x nn) → c.draws = id) (s : State) :
    completed (s.recarry c) i = (completed s i).recarry c := by
  cases i
  case call nnn =>
    have hid := hstack (.inl ⟨nnn, rfl⟩)
    obtain ⟨stack, tickPos, ticks, hostMasks, draws⟩ := c
    obtain rfl : stack = id := hid
    rfl
  case ret =>
    have hid := hstack (.inr rfl)
    obtain ⟨stack, tickPos, ticks, hostMasks, draws⟩ := c
    obtain rfl : stack = id := hid
    rfl
  case rnd x nn =>
    have hid := hdraws ⟨x, nn, rfl⟩
    obtain ⟨stack, tickPos, ticks, hostMasks, draws⟩ := c
    obtain rfl : draws = id := hid
    rfl
  case draw x y n =>
    simp only [completed, blitRows_recarry]
    rfl
  case store x =>
    exact congrArg (fun u => State.setI u (s.indexAfterBlock x)) (storeRegs_recarry c s.advance s.i.toNat (blockLength x))
  case load x =>
    exact congrArg (fun u => State.setI u (s.indexAfterBlock x)) (loadRegs_recarry c s.advance s.i.toNat (blockLength x))
  all_goals rfl

theorem exec_recarry {c : Carry} {i : Instr} {s t : State} (hstack : (∃ nnn, i = .call nnn) ∨ i = .ret → c.stack = id)
    (hdraws : (∃ x nn, i = .rnd x nn) → c.draws = id) (h : exec i s = .next t) :
    exec i (s.recarry c) = .next (t.recarry c) := by
  rcases exec_cases h with ⟨hf, rfl⟩ | ⟨hf, rfl⟩
  · rw [exec_of_faultsOn ((faultsOn_recarry c s i).2 hf), faultRecord_recarry]
    rfl
  · rw [exec_of_not_faultsOn (mt (faultsOn_recarry c s i).1 hf), completed_recarry hstack hdraws]

/-- Settles O22: only RND reads the draws, so a change of them passes through. -/
theorem randomnessOnlyThroughRnd : Obligations.RandomnessOnlyThroughRnd := fun _ _ _ n hrnd h =>
  exec_recarry (c := { draws := fun _ => n }) (fun _ => rfl) (fun ⟨x, nn, hi⟩ => absurd hi (hrnd x nn)) h

/-- A Step sees neither the tick's position, nor the count of ticks, nor the host's queue. -/
theorem stepInstr_recarry {c : Carry} (hstack : c.stack = id) (hdraws : c.draws = id) {s t : State}
    (h : stepInstr s = .next t) : stepInstr (s.recarry c) = .next (t.recarry c) := by
  have hfault : (s.recarry c).fault = s.fault := rfl
  have hfetch : (s.recarry c).fetch = s.fetch := rfl
  rcases stepInstr_cases h with ⟨hf, rfl⟩ | ⟨hf, hw, rfl⟩ | ⟨hf, w, r, hw, hd, rfl⟩ | ⟨hf, w, i, hw, hd, he⟩
  · exact stepInstr_of_fault hf
  · exact stepInstr_of_no_fetch hf hw
  · exact stepInstr_of_unknown hf hw hd
  · rw [stepInstr_of_decode (hfault.trans hf) (hfetch.trans hw) hd]
    exact exec_recarry (fun _ => hstack) (fun _ => hdraws) he

/-! A budget of steps (R95; log 4). -/

/-- The state with the tick's own fields replaced: position p, n ticks begun, masks ms in the queue. -/
def State.atTick (s : State) (p n : Nat) (ms : List Word) : State :=
  { s with tickPos := p, ticks := n, hostMasks := ms }

@[simp] theorem State.atTick_cfg (s : State) (p n : Nat) (ms : List Word) : (s.atTick p n ms).cfg = s.cfg := rfl
@[simp] theorem State.atTick_tickPos (s : State) (p n : Nat) (ms : List Word) : (s.atTick p n ms).tickPos = p := rfl

theorem stepInstr_atTick {s t : State} (h : stepInstr s = .next t) (p n : Nat) (ms : List Word) :
    stepInstr (s.atTick p n ms) = .next (t.atTick p n ms) :=
  stepInstr_recarry (c := { tickPos := fun _ => p, ticks := fun _ => n, hostMasks := fun _ => ms }) rfl rfl h

theorem runSteps_succ {s t : State} (h : step s = .next t) (n : Nat) : runSteps (n + 1) s = runSteps n t := by
  rw [runSteps, h]

theorem runSteps_of_fault {s : State} (h : s.fault ≠ none) (n : Nat) : runSteps n s = .next s := by
  induction n with
  | zero => rfl
  | succ n ih => rw [runSteps_succ (step_of_fault h), ih]

/-- The last n + 1 steps of a tick are the last n + 1 Steps of its batch, and the timers' count: w is the machine's state at
position p, s the batch's. -/
theorem runSteps_of_runBatch {n p m : Nat} {ms : List Word} {s t w : State} (hf : w.fault = none)
    (hw : w.beginStep = s.atTick p m ms) (hp : p + (n + 1) = s.cfg.ipf) (h : runBatch (n + 1) s = .next t) :
    ∃ q, runSteps (n + 1) w = .next (t.endTick.atTick q m ms) ∧ (t.fault = none → q = 0) := by
  induction n using Nat.strongRecOn generalizing p s w with
  | ind n ih =>
    obtain ⟨u, hu⟩ := stepInstr_next s
    obtain ⟨hcfg, -, -⟩ := stepInstr_keeps hu
    have hstep := step_of_stepInstr hf (hw ▸ stepInstr_atTick hu p m ms)
    rw [runSteps_succ hstep]
    rw [runBatch_succ hu] at h
    by_cases huf : u.fault = none
    · rw [if_neg (by simp [huf])] at h
      cases n with
      | zero =>
        obtain rfl : u = t := Host.Outcome.next.inj h
        have hend : (u.atTick p m ms).endStep = u.countTimers.atTick 0 m ms :=
          State.endStep_of_last huf (by simpa [hcfg] using hp)
        rw [hend, State.endTick_of_not_fault huf]
        exact ⟨0, rfl, fun _ => rfl⟩
      | succ n =>
        have hend : (u.atTick p m ms).endStep = u.atTick (p + 1) m ms :=
          State.endStep_of_not_last huf (by rw [State.atTick_tickPos, State.atTick_cfg, hcfg]; omega)
        rw [hend]
        exact ih n n.lt_succ_self huf (if_neg p.succ_ne_zero) (by rw [hcfg]; omega) h
    · rw [if_pos (Option.isSome_iff_ne_none.2 huf)] at h
      obtain rfl : u = t := Host.Outcome.next.inj h
      have hstop : (u.atTick p m ms).fault ≠ none := huf
      rw [State.endStep_of_fault hstop, runSteps_of_fault hstop, State.endTick_of_fault huf]
      exact ⟨p, rfl, fun hno => absurd hno huf⟩

/-- Settles O46: at a boundary the first step latches the queue's mask, as Tick does, and the rest are the batch's. -/
theorem budgetOfStepsIsTick : Obligations.BudgetOfStepsIsTick := by
  intro k ms s t hpos hipf hf h
  obtain ⟨n, hn⟩ := Nat.exists_eq_add_of_le' hipf
  rcases tick_cases h with ⟨hne, -⟩ | ⟨-, u, hu, rfl⟩
  · exact absurd hf hne
  have hbegin : State.beginStep { s with hostMasks := k :: ms } = (s.setKeys k).atTick 0 (s.ticks + 1) ms := by
    rw [State.beginStep, if_pos hpos, ← hpos]
    rfl
  rw [hn] at hu ⊢
  obtain ⟨q, hrun, hq⟩ := runSteps_of_runBatch (w := { s with hostMasks := k :: ms }) hf hbegin
    ((Nat.zero_add _).trans hn.symm) hu
  refine ⟨q, hrun, fun ht => hq ?_⟩
  by_contra hne
  exact hne (by rwa [State.endTick_of_fault hne] at ht)

/-! The slots at or above sp (R26). -/

/-- A stack that agrees with a state's in every slot in use. -/
def AgreesInUse (s : State) (st : List Word) : Prop :=
  st.length = s.stack.length ∧ ∀ j, j < s.sp → st.getD j 0 = s.stackAt j

theorem AgreesInUse.congr {s t : State} {st : List Word} (h : AgreesInUse s st) (hstack : t.stack = s.stack)
    (hsp : t.sp = s.sp) : AgreesInUse t st := by
  obtain ⟨hlen, hslots⟩ := h
  exact ⟨hstack ▸ hlen, fun j hj => by rw [State.stackAt, hstack]; exact hslots j (hsp ▸ hj)⟩

/-- The stack's slots replaced. -/
def State.setStack (s : State) (st : List Word) : State := { s with stack := st }

/-- A push writes the same slot of both stacks. -/
theorem AgreesInUse.push {s : State} {st : List Word} (h : AgreesInUse s st) (w : Word) :
    AgreesInUse (s.push w) (st.set s.sp w) := by
  obtain ⟨hlen, hslots⟩ := h
  refine ⟨by simp [hlen], fun j hj => ?_⟩
  rcases Nat.lt_succ_iff_lt_or_eq.1 hj with hlt | rfl
  · simpa [State.stackAt, List.getElem?_set_ne (ne_of_gt hlt)] using hslots j hlt
  · simp [State.stackAt, List.getElem?_set, hlen]

theorem completed_setStack {s : State} {st : List Word} {i : Instr} (hfit : ¬ FaultsOn s i) (ha : AgreesInUse s st) :
    ∃ st', completed (s.setStack st) i = (completed s i).setStack st' ∧ AgreesInUse (completed s i) st' := by
  have hexec := exec_of_not_faultsOn hfit
  cases i
  case call nnn => exact ⟨st.set s.sp (s.pc + 2), rfl, (ha.push (s.pc + 2)).congr rfl rfl⟩
  case ret =>
    obtain ⟨hlen, hslots⟩ := ha
    have hsp : s.sp ≠ 0 := hfit
    have htop : (s.setStack st).stackAt (s.sp - 1) = s.stackAt (s.sp - 1) := hslots _ (by omega)
    exact ⟨st, congrArg (State.setPc (s.setStack st).dropTop) htop, hlen,
      fun j hj => hslots j (lt_of_lt_of_le hj (Nat.sub_le _ _))⟩
  all_goals
    exact ⟨st, completed_recarry (c := { stack := fun _ => st }) (by simp) (fun _ => rfl) s,
      ha.congr (exec_stack hexec (by simp)) (exec_sp hexec (by simp) (by simp))⟩

theorem stepInstr_setStack {s t : State} {st : List Word} (ha : AgreesInUse s st) (h : stepInstr s = .next t) :
    ∃ st', stepInstr (s.setStack st) = .next (t.setStack st') ∧ AgreesInUse t st' := by
  rcases stepInstr_cases h with ⟨hf, rfl⟩ | ⟨hf, hw, rfl⟩ | ⟨hf, w, r, hw, hd, rfl⟩ | ⟨hf, w, i, hw, hd, he⟩
  · exact ⟨st, stepInstr_of_fault hf, ha⟩
  · exact ⟨st, stepInstr_of_no_fetch hf hw, ha⟩
  · exact ⟨st, stepInstr_of_unknown hf hw hd, ha⟩
  have hiff := faultsOn_recarry { stack := fun _ => st } s i
  have hdec : stepInstr (s.setStack st) = exec i (s.setStack st) := stepInstr_of_decode hf hw hd
  rcases exec_cases he with ⟨hfault, rfl⟩ | ⟨hfit, rfl⟩
  · refine ⟨st, (hdec.trans (exec_of_faultsOn (hiff.2 hfault))).trans ?_, ha⟩
    exact congrArg (fun f => Host.Outcome.next ((s.setStack st).raise f)) (faultRecord_recarry { stack := fun _ => st } s i)
  · obtain ⟨st', hst', ha'⟩ := completed_setStack hfit ha
    exact ⟨st', (hdec.trans (exec_of_not_faultsOn (mt hiff.1 hfit))).trans (congrArg _ hst'), ha'⟩

theorem State.beginStep_setStack (s : State) (st : List Word) : (s.setStack st).beginStep = s.beginStep.setStack st := by
  rw [State.beginStep, State.beginStep, apply_ite (State.setStack · st)]
  rfl

theorem State.endStep_setStack (s : State) (st : List Word) : (s.setStack st).endStep = s.endStep.setStack st := by
  have hfault : (s.setStack st).fault = s.fault := rfl
  have hlast : (s.setStack st).lastOfTick = s.lastOfTick := rfl
  rw [State.endStep, State.endStep, hfault, hlast]
  split_ifs <;> rfl

/-- Settles O56: the tick's ends do not see the stack, and the Step keeps the agreement in the slots in use. -/
theorem poppedSlotsAreUnobservable : Obligations.PoppedSlotsAreUnobservable := by
  intro s t st hlen hslots h
  rcases step_cases h with ⟨hf, rfl⟩ | ⟨hf, u, hu, rfl⟩
  · exact ⟨st, step_of_fault hf, hlen, hslots⟩
  have ha : AgreesInUse s.beginStep st := AgreesInUse.congr ⟨hlen, hslots⟩ s.beginStep_stack s.beginStep_sp
  obtain ⟨st', hstep, ha'⟩ := stepInstr_setStack ha hu
  have hrun : step (s.setStack st) = .next (u.setStack st').endStep :=
    step_of_stepInstr hf ((congrArg stepInstr (s.beginStep_setStack st)).trans hstep)
  exact ⟨st', hrun.trans (congrArg _ (u.endStep_setStack st')), ha'.congr u.endStep_stack u.endStep_sp⟩

end Sys2Proof.Machine
end

section
/-! PROOFS. Register instructions with a flag, and RND (spec/42_alu.md R136 to R142): each writes its result, then its flag,
beside the advance. -/

namespace Sys2Proof.Machine

open Sys2Proof Sys2Proof.Safety

/-! What they answer. -/

theorem exec_add (x y : Reg) (s : State) : exec (.add x y) s =
    .next (s.advance.setResultThenFlag x (s.getV x + s.getV y) (carryFlag (s.getV x) (s.getV y))) := rfl

theorem exec_sub (x y : Reg) (s : State) : exec (.sub x y) s =
    .next (s.advance.setResultThenFlag x (s.getV x - s.getV y) (noBorrowFlag (s.getV x) (s.getV y))) := rfl

theorem exec_rsub (x y : Reg) (s : State) : exec (.rsub x y) s =
    .next (s.advance.setResultThenFlag x (s.getV y - s.getV x) (noBorrowFlag (s.getV y) (s.getV x))) := rfl

theorem exec_shr (x y : Reg) (s : State) : exec (.shr x y) s =
    .next (s.advance.setResultThenFlag x (s.shiftSource x y >>> 1) (shiftedOutLow (s.shiftSource x y))) := rfl

theorem exec_shl (x y : Reg) (s : State) : exec (.shl x y) s =
    .next (s.advance.setResultThenFlag x (s.shiftSource x y <<< 1) (shiftedOutHigh (s.shiftSource x y))) := rfl

theorem exec_rnd (x : Reg) (nn : Byte) (s : State) : exec (.rnd x nn) s =
    .next (s.advance.spendDraw.setV x (randomResult s.draw nn)) := rfl

/-- An instruction that writes a result and a flag, given by what they are to satisfy: VF ends as the flag, and V[X] as the
result unless X names VF (R142). -/
theorem completes_of_setResultThenFlag {i : Instr} {s : State} {x : Reg} {r f : Byte} {P Q : Byte → Prop}
    (h : exec i s = .next (s.advance.setResultThenFlag x r f)) (hr : P r) (hf : Q f) :
    ∃ t, exec i s = .next t ∧ (x ≠ 0xF → P (t.getV x)) ∧ Q (t.getV 0xF) ∧ t.pc = s.pc + 2 ∧
      ChangesOnlyRegs [x, 0xF] s t := by
  refine ⟨_, h, fun hx => ?_, ?_, rfl, changesOnlyRegs_setResultThenFlag s x r f⟩
  · rwa [State.getV_setResultThenFlag, if_neg hx, if_pos rfl]
  · rwa [State.getV_setResultThenFlag, if_pos rfl]

/-! The results and the flags, as natural numbers. -/

theorem flagByte_decide (p : Prop) [Decidable p] : flagByte (decide p) = if p then 1 else 0 := by simp [flagByte]

theorem toNat_sub_byte (a b : Byte) : (a - b).toNat = (a.toNat + 256 - b.toNat) % 256 := by
  rw [BitVec.toNat_sub]
  congr 1
  omega

theorem toNat_shiftRight_one (b : Byte) : (b >>> 1).toNat = b.toNat / 2 := by
  rw [BitVec.toNat_ushiftRight, Nat.shiftRight_eq_div_pow, Nat.pow_one]

theorem toNat_shiftLeft_one (b : Byte) : (b <<< 1).toNat = b.toNat * 2 % 256 := by
  rw [BitVec.toNat_shiftLeft, Nat.shiftLeft_eq, Nat.pow_one]

/-- A bit of a byte, as a flag. -/
theorem toNat_flagByte_getLsbD (b : Byte) (k : Nat) : (flagByte (b.getLsbD k)).toNat = b.toNat / 2 ^ k % 2 := by
  rw [BitVec.getLsbD, Nat.testBit_eq_decide_div_mod_eq, flagByte_decide]
  split_ifs with h
  · exact h.symm
  · exact (Nat.mod_two_ne_one.1 h).symm

theorem toNat_shiftedOutLow (b : Byte) : (shiftedOutLow b).toNat = b.toNat % 2 := by
  rw [shiftedOutLow, toNat_flagByte_getLsbD, Nat.pow_zero, Nat.div_one]

theorem toNat_shiftedOutHigh (b : Byte) : (shiftedOutHigh b).toNat = b.toNat / 128 := by
  rw [shiftedOutHigh, toNat_flagByte_getLsbD]
  omega

/-- Settles O18: the sum of two bytes mod 256, and the carry of their sum as natural numbers. -/
theorem addSetsCarry : Obligations.AddSetsCarry := fun x y s =>
  completes_of_setResultThenFlag (P := fun r => r.toNat = _) (Q := fun f => f = _) (exec_add x y s)
    (BitVec.toNat_add _ _) (flagByte_decide _)

/-- Settles O19: the two differ in which operand is the minuend. -/
theorem subtractionsSetNoBorrow : Obligations.SubtractionsSetNoBorrow := fun x y s =>
  ⟨completes_of_setResultThenFlag (P := fun r => r.toNat = _) (Q := fun f => f = _) (exec_sub x y s)
      (toNat_sub_byte _ _) (flagByte_decide _),
    completes_of_setResultThenFlag (P := fun r => r.toNat = _) (Q := fun f => f = _) (exec_rsub x y s)
      (toNat_sub_byte _ _) (flagByte_decide _)⟩

/-- Settles O20: one source for both shifts, and the bit shifted out is its lowest, or its highest. -/
theorem shiftsKeepTheBitShiftedOut : Obligations.ShiftsKeepTheBitShiftedOut := by
  rintro x y s _ rfl
  exact ⟨completes_of_setResultThenFlag (P := fun r => r.toNat = _) (Q := fun f => f.toNat = _) (exec_shr x y s)
      (toNat_shiftRight_one _) (toNat_shiftedOutLow _),
    completes_of_setResultThenFlag (P := fun r => r.toNat = _) (Q := fun f => f.toNat = _) (exec_shl x y s)
      (toNat_shiftLeft_one _) (toNat_shiftedOutHigh _)⟩

/-- Settles O21: the draw is masked bit by bit, whatever it is. -/
theorem rndMasksItsDraw : Obligations.RndMasksItsDraw := by
  intro x nn s
  obtain ⟨hregs, hi, hmem, hdisp, hstack, htimers, hcontrol, -⟩ :=
    changesOnlyRegs_setV s (s.pc + 2) x (randomResult s.draw nn)
  refine ⟨_, exec_rnd x nn s, fun k _ => ?_, ?_, rfl, rfl, hregs, hi, hmem, hdisp, hstack, htimers, hcontrol⟩
  · rw [State.getV_setV_self]
    exact BitVec.getLsbD_and
  · rw [State.getV_setV_self, randomResult, BitVec.toNat_and]
    exact Nat.and_le_right

end Sys2Proof.Machine
end

section
/-! PROOFS. CALL and RET (spec/41_control_transfer.md R110, R112), ADDIDX (spec/43_index_memory.md R151) and the key skips
(spec/45_timers_keys.md R180, R181, R186). -/

namespace Sys2Proof.Machine

open Sys2Proof Sys2Proof.Safety

theorem exec_call {s : State} (h : s.sp ≠ s.cfg.stackDepth) (nnn : Addr12) :
    exec (.call nnn) s = .next ((s.push (s.pc + 2)).setPc (addrOf nnn)) :=
  exec_of_not_faultsOn (i := .call nnn) h

theorem exec_ret {s : State} (h : s.sp ≠ 0) :
    exec .ret s = .next (s.dropTop.setPc (s.stackAt (s.sp - 1))) :=
  exec_of_not_faultsOn (i := .ret) h

/-- Settles O24: a push onto a free slot. -/
theorem callPushesReturnAddress : Obligations.CallPushesReturnAddress := by
  intro nnn s hwf hfree
  obtain ⟨hlen, -, -⟩ := hwf
  have hslot := State.stackAt_push (hlen ▸ hfree : s.sp < s.stack.length) (s.pc + 2)
  refine ⟨_, exec_call hfree.ne nnn, toNat_addrOf nnn, rfl, ?_, fun j hj => ?_, List.length_set ..,
    fun _ _ => rfl, rfl, fun _ => rfl, fun _ _ => rfl, ⟨rfl, rfl⟩, ⟨rfl, rfl, rfl, rfl, rfl, rfl⟩, rfl⟩
  · exact (hslot s.sp).trans (if_pos rfl)
  · exact (hslot j).trans (if_neg hj)

/-- Settles O25: the top slot goes to pc, and the slots stay. -/
theorem retPopsReturnAddress : Obligations.RetPopsReturnAddress := fun _ hsp =>
  ⟨_, exec_ret hsp, rfl, Nat.succ_pred_eq_of_ne_zero hsp, rfl, fun _ _ => rfl, rfl, fun _ => rfl, fun _ _ => rfl, ⟨rfl, rfl⟩,
    ⟨rfl, rfl, rfl, rfl, rfl, rfl⟩, rfl⟩

/-- Settles O26: the RET reads the slot the CALL wrote. -/
theorem callThenRetResumes : Obligations.CallThenRetResumes := by
  intro nnn s t u hwf hfree hcall hstack hsp
  obtain ⟨t', ht', -, htsp, htop, hbelow, -⟩ := callPushesReturnAddress nnn s hwf hfree
  obtain rfl : t' = t := Host.Outcome.next.inj (ht'.symm.trans hcall)
  have hslots : ∀ j, u.stackAt j = t'.stackAt j := fun j => by rw [State.stackAt, hstack, State.stackAt]
  have husp : u.sp = s.sp + 1 := hsp.trans htsp
  obtain ⟨v, hv, hpc, hvsp, hvstack, -⟩ := retPopsReturnAddress u (by omega)
  refine ⟨v, hv, ?_, by omega, fun j hj => ?_⟩
  · rw [hpc, husp, Nat.add_sub_cancel, hslots, htop]
  · rw [State.stackAt, hvstack]
    exact (hslots j).trans (hbelow j hj.ne)

theorem exec_addidx (x : Reg) (s : State) : exec (.addidx x) s =
    .next ((s.advance.setI (s.indexPlus x)).setV vf (if indexOverflow s.cfg (s.indexPlus x) then 1 else s.getV vf)) := rfl

theorem toNat_indexPlus (s : State) (x : Reg) :
    (s.indexPlus x).toNat = (s.i.toNat + (s.getV x).toNat) % 65536 := by
  rw [State.indexPlus, BitVec.toNat_add, toNat_zextByte]

/-- Settles O31: the comparison is with the sum after the wrap. -/
theorem addidxAddsToIndex : Obligations.AddidxAddsToIndex := by
  intro x s
  refine ⟨_, exec_addidx x s, toNat_indexPlus s x, ?_, rfl, changesOnlyIndexAndRegs_setV s _ vf _⟩
  rw [State.getV_setV_self, indexOverflow, toNat_indexPlus]
  simp

theorem exec_skp (x : Reg) (s : State) :
    exec (.skp x) s = .next (s.advance.skipIf (keybit s.keys (s.getV x))) := rfl

theorem exec_sknp (x : Reg) (s : State) :
    exec (.sknp x) s = .next (s.advance.skipIf (!keybit s.keys (s.getV x))) := rfl

theorem keybit_eq (keys : Word) (k : Byte) : keybit keys k = (decide (k.toNat ≤ 15) && keys.getLsbD k.toNat) := by
  unfold keybit
  split_ifs with h <;> simp [h]

/-- Settles O41: the two skip on opposite values of the key's bit. -/
theorem keySkipsTestTheMask : Obligations.KeySkipsTestTheMask := by
  rintro x s _ rfl
  rw [← keybit_eq]
  refine ⟨⟨_, exec_skp x s, pc_advance_skipIf s _, changesOnlyRegs_skipIf s _⟩,
    ⟨_, exec_sknp x s, (pc_advance_skipIf s _).trans ?_, changesOnlyRegs_skipIf s _⟩⟩
  cases keybit s.keys (s.getV x) <;> rfl

end Sys2Proof.Machine
end

section
/-! PROOFS. BCD, STORE and LOAD inside memory (spec/43_index_memory.md R153 to R156), and what a step and Load do to memory
(spec/20_memory.md R58, R63; spec/70_reset_and_hazards.md R232). -/

namespace Sys2Proof.Machine

open Sys2Proof Sys2Proof.Safety

/-! What they answer, where the footprint fits. -/

section
variable {s : State} {x : Reg}

theorem exec_bcd (h : s.i.toNat + 2 ≤ 4095) : exec (.bcd x) s = .next (completed s (.bcd x)) :=
  exec_of_not_faultsOn (i := .bcd x) (not_lt.2 h)

theorem exec_store (h : s.i.toNat + x.toNat ≤ 4095) : exec (.store x) s = .next (completed s (.store x)) :=
  exec_of_not_faultsOn (i := .store x) (not_lt.2 h)

theorem exec_load (h : s.i.toNat + x.toNat ≤ 4095) : exec (.load x) s = .next (completed s (.load x)) :=
  exec_of_not_faultsOn (i := .load x) (not_lt.2 h)

end

/-! The values they compute, as natural numbers. -/

theorem toNat_bcdHundreds (b : Byte) : (bcdHundreds b).toNat = b.toNat / 100 := by
  rw [bcdHundreds, BitVec.toNat_ofNat, Nat.mod_eq_of_lt (by omega)]

theorem toNat_bcdTens (b : Byte) : (bcdTens b).toNat = b.toNat / 10 % 10 := by
  rw [bcdTens, BitVec.toNat_ofNat, Nat.mod_eq_of_lt (by omega)]

theorem toNat_bcdUnits (b : Byte) : (bcdUnits b).toNat = b.toNat % 10 := by
  rw [bcdUnits, BitVec.toNat_ofNat, Nat.mod_eq_of_lt (by omega)]

theorem toNat_indexAfterBlock (s : State) (x : Reg) :
    (s.indexAfterBlock x).toNat = if s.cfg.qMemKeepI then s.i.toNat else (s.i.toNat + x.toNat + 1) % 65536 := by
  unfold State.indexAfterBlock
  split_ifs
  · rfl
  · rw [BitVec.toNat_add, BitVec.toNat_ofNat, Nat.mod_eq_of_lt (a := x.toNat + 1) (by omega), Nat.add_assoc]

/-! What they leave in memory and in the registers. -/

theorem readByte_completed_bcd {s : State} (hm : MemoryWf s) (hi : s.i.toNat + 2 ≤ 4095) (x : Reg) (a : Nat) :
    (completed s (.bcd x)).readByte a =
      if a = s.i.toNat then bcdHundreds (s.getV x)
      else if a = s.i.toNat + 1 then bcdTens (s.getV x)
      else if a = s.i.toNat + 2 then bcdUnits (s.getV x)
      else s.readByte a :=
  State.readByte_writeDigits (s := s.advance) hm hi (s.getV x) a

theorem readByte_completed_store {s : State} {x : Reg} (hm : MemoryWf s) (hi : s.i.toNat + x.toNat ≤ 4095) (a : Nat) :
    (completed s (.store x)).readByte a =
      if s.i.toNat ≤ a ∧ a ≤ s.i.toNat + x.toNat then s.getV (BitVec.ofNat 4 (a - s.i.toNat)) else s.readByte a := by
  have hfit : s.i.toNat + blockLength x ≤ 4096 := by rw [blockLength]; omega
  rw [completed, State.readByte_setI, State.readByte_storeRegs (s := s.advance) hm hfit]
  simp only [blockLength, ← Nat.add_assoc, Nat.lt_succ_iff, State.getV_advance, State.readByte_advance]

/-- Register k's byte, k places from I. -/
theorem readByte_completed_store_reg {s : State} {x k : Reg} (hm : MemoryWf s) (hi : s.i.toNat + x.toNat ≤ 4095)
    (hk : k.toNat ≤ x.toNat) : (completed s (.store x)).readByte (s.i.toNat + k.toNat) = s.getV k := by
  rw [readByte_completed_store hm hi, if_pos (by omega), Nat.add_sub_cancel_left, BitVec.ofNat_toNat, BitVec.setWidth_eq]

/-- Nothing but memory, I and pc has changed, and pc is a + 2. -/
abbrev ChangesOnlyMemoryAndIndex (s t : State) : Prop :=
  t.pc = s.pc + 2 ∧ KeepsRegsBut [] s t ∧ KeepsDisplay s t ∧ KeepsStack s t ∧ KeepsTimers s t ∧ KeepsControl s t ∧
    t.draws = s.draws

theorem completed_store_frame (s : State) (x : Reg) :
    (completed s (.store x)).i = s.indexAfterBlock x ∧ ChangesOnlyMemoryAndIndex s (completed s (.store x)) := by
  obtain ⟨m, hm⟩ := completed_store_eq s x
  rw [hm]
  exact ⟨rfl, rfl, fun _ _ => rfl, fun _ _ => rfl, ⟨rfl, rfl⟩, ⟨rfl, rfl⟩, ⟨rfl, rfl, rfl, rfl, rfl, rfl⟩, rfl⟩

theorem completed_load_frame (s : State) (x : Reg) :
    (completed s (.load x)).i = s.indexAfterBlock x ∧ (completed s (.load x)).pc = s.pc + 2 ∧
      KeepsMemory s (completed s (.load x)) ∧ KeepsDisplay s (completed s (.load x)) ∧
      KeepsStack s (completed s (.load x)) ∧ KeepsTimers s (completed s (.load x)) ∧
      KeepsControl s (completed s (.load x)) ∧ (completed s (.load x)).draws = s.draws := by
  obtain ⟨v, hv⟩ := completed_load_eq s x
  rw [hv]
  exact ⟨rfl, rfl, fun _ => rfl, fun _ _ => rfl, ⟨rfl, rfl⟩, ⟨rfl, rfl⟩, ⟨rfl, rfl, rfl, rfl, rfl, rfl⟩, rfl⟩

/-- Settles O33: three writes at three addresses, each a digit of V[X]. -/
theorem bcdWritesThreeDigits : Obligations.BcdWritesThreeDigits := by
  intro x s hm hi
  have hread := readByte_completed_bcd hm hi x
  refine ⟨_, exec_bcd hi, ?_, ?_, ?_, fun a ha => ?_, rfl, fun _ _ => rfl, rfl, fun _ _ => rfl, ⟨rfl, rfl⟩, ⟨rfl, rfl⟩,
    ⟨rfl, rfl, rfl, rfl, rfl, rfl⟩, rfl⟩
  · rw [hread, if_pos rfl, toNat_bcdHundreds]
  · rw [hread, if_neg (by omega), if_pos rfl, toNat_bcdTens]
  · rw [hread, if_neg (by omega), if_neg (by omega), if_pos rfl, toNat_bcdUnits]
  · rw [hread, if_neg (by omega), if_neg (by omega), if_neg (by omega)]

/-- Settles O34: the block's bytes are the registers', and I is STORE's last write. -/
theorem storeCopiesRegisters : Obligations.StoreCopiesRegisters := by
  intro x s hm hi
  obtain ⟨hidx, hframe⟩ := completed_store_frame s x
  refine ⟨_, exec_store hi, fun k hk => readByte_completed_store_reg hm hi hk, fun a ha => ?_, ?_, hframe⟩
  · rw [readByte_completed_store hm hi, if_neg (by omega)]
  · rw [hidx, toNat_indexAfterBlock]

/-- Settles O35: the registers up to X are the block's bytes, and I is LOAD's last write. -/
theorem loadCopiesMemory : Obligations.LoadCopiesMemory := by
  intro x s hi
  obtain ⟨hidx, hframe⟩ := completed_load_frame s x
  refine ⟨_, exec_load hi, fun k hk => ?_, fun k hk => ?_, ?_, hframe⟩
  · rw [getV_completed_load, if_pos hk]
  · rw [getV_completed_load, if_neg (by omega)]
  · rw [hidx, toNat_indexAfterBlock]

/-- Settles O36: the LOAD reads the bytes the STORE wrote, and both move I by the same rule. -/
theorem loadInvertsStore : Obligations.LoadInvertsStore := by
  intro x s t u hm hi h hcfg hmem hui
  obtain rfl := Host.Outcome.next.inj ((exec_store hi).symm.trans h)
  have hread : ∀ a, u.readByte a = (completed s (.store x)).readByte a := fun a => by
    rw [State.readByte, hcfg, hmem, State.readByte]
  refine ⟨_, exec_load (hui ▸ hi), fun k hk => ?_, ?_⟩
  · rw [getV_completed_load, if_pos hk, hread, hui, readByte_completed_store_reg hm hi hk]
  · obtain ⟨hidx, -, -, -, -, -, ⟨hscfg, -⟩, -⟩ := completed_store_frame s x
    obtain ⟨huidx, -⟩ := completed_load_frame u x
    rw [hidx, huidx, State.indexAfterBlock, State.indexAfterBlock, hcfg, hscfg, hui]

/-- Settles O37: the fetch reads the two bytes through the same memory the STORE wrote. -/
theorem storeIsSeenByNextFetch : Obligations.StoreIsSeenByNextFetch := by
  intro x s t hm hi h hlow hhigh
  obtain rfl := Host.Outcome.next.inj ((exec_store hi).symm.trans h)
  obtain ⟨-, hpc, -⟩ := completed_store_frame s x
  rw [State.fetch_eq_some (by rw [hpc]; omega), hpc, readByte_completed_store hm hi, if_pos (by omega),
    readByte_completed_store hm hi, if_pos (by omega), wordOfBytes]

/-! The bytes a step may change (R58). -/

theorem exec_readByte {i : Instr} {s t : State} {a : Nat} (hm : MemoryWf s) (h : exec i s = .next t)
    (ha : t.readByte a ≠ s.readByte a) :
    (∃ x, i = .bcd x ∧ s.i.toNat ≤ a ∧ a ≤ s.i.toNat + 2) ∨
    (∃ x : Reg, i = .store x ∧ s.i.toNat ≤ a ∧ a ≤ s.i.toNat + x.toNat) := by
  obtain ⟨hcfg, -, -⟩ := exec_keeps h
  have hmem : t.mem ≠ s.mem := fun hmem => ha (by rw [State.readByte, hcfg, hmem, State.readByte])
  rcases exec_cases h with ⟨-, rfl⟩ | ⟨hfit, rfl⟩
  · exact absurd rfl hmem
  obtain ⟨x, rfl | rfl⟩ := exec_mem h hmem
  · refine .inl ⟨x, rfl, ?_⟩
    by_contra hout
    exact ha (by rw [readByte_completed_bcd hm (not_lt.1 hfit), if_neg (by omega), if_neg (by omega), if_neg (by omega)])
  · refine .inr ⟨x, rfl, ?_⟩
    by_contra hout
    exact ha (by rw [readByte_completed_store hm (not_lt.1 hfit), if_neg hout])

theorem stepInstr_readByte {s t : State} {a : Nat} (hm : MemoryWf s) (h : stepInstr s = .next t)
    (ha : t.readByte a ≠ s.readByte a) :
    (∃ x, s.fetch.map decode = some (.ok (.bcd x)) ∧ s.i.toNat ≤ a ∧ a ≤ s.i.toNat + 2) ∨
    (∃ x : Reg, s.fetch.map decode = some (.ok (.store x)) ∧ s.i.toNat ≤ a ∧ a ≤ s.i.toNat + x.toNat) := by
  rcases stepInstr_cases h with ⟨-, rfl⟩ | ⟨-, -, rfl⟩ | ⟨-, w, r, -, -, rfl⟩ | ⟨-, w, i, hw, hd, he⟩
  · exact absurd rfl ha
  · exact absurd rfl ha
  · exact absurd rfl ha
  · rw [hw, Option.map_some, hd]
    rcases exec_readByte hm he ha with ⟨x, rfl, hrange⟩ | ⟨x, rfl, hrange⟩
    · exact .inl ⟨x, rfl, hrange⟩
    · exact .inr ⟨x, rfl, hrange⟩

/-- Settles O52: the ends of a tick leave memory alone, so the Step changed the byte. -/
theorem memoryChangesOnlyByBcdAndStore : Obligations.MemoryChangesOnlyByBcdAndStore := by
  intro s t a hm h ha
  rcases step_cases h with ⟨-, rfl⟩ | ⟨-, u, hu, rfl⟩
  · exact absurd rfl ha
  · have hbegin : MemoryWf s.beginStep := by rwa [MemoryWf, s.beginStep_cfg, s.beginStep_mem]
    have hchange : u.readByte a ≠ s.beginStep.readByte a := by simpa using ha
    simpa using stepInstr_readByte hbegin hu hchange

/-! Load (R232). -/

section
variable (a : Nat) (image : List Byte) (s : State)

/-- A load changes memory and nothing else. -/
theorem loadFrom_eq : ∃ m, State.loadFrom a image s = { s with mem := m } := by
  induction image generalizing a s with
  | nil => exact ⟨s.mem, rfl⟩
  | cons b bs ih =>
    rw [State.loadFrom]
    split_ifs
    · exact ih (a + 1) (s.writeByte a b)
    · exact ⟨s.mem, rfl⟩

variable {s} (hm : MemoryWf s)
include hm

theorem loadFrom_memoryWf : MemoryWf (State.loadFrom a image s) := by
  induction image generalizing a s with
  | nil => exact hm
  | cons b bs ih =>
    rw [State.loadFrom]
    split_ifs with ha
    · exact ih (a + 1) (Memory.wf_write hm ha b)
    · exact hm

/-- What a load from address a leaves at address k: the image's byte where it has one and the address is in memory. -/
theorem readByte_loadFrom (k : Nat) :
    (State.loadFrom a image s).readByte k =
      if a ≤ k ∧ k < a + image.length ∧ k ≤ 4095 then image.getD (k - a) 0 else s.readByte k := by
  induction image generalizing a s with
  | nil => rw [State.loadFrom, List.length_nil, if_neg (by omega)]
  | cons b bs ih =>
    rw [State.loadFrom, List.length_cons]
    by_cases ha : a ≤ 4095
    · rw [if_pos ha, ih (a + 1) (Memory.wf_write hm ha b), State.readByte_writeByte hm]
      by_cases hk : a = k
      · subst hk
        rw [if_neg (by omega), if_pos rfl, if_pos (by omega), Nat.sub_self, List.getD_cons_zero]
      · rw [if_neg hk]
        by_cases hin : a + 1 ≤ k ∧ k < a + 1 + bs.length ∧ k ≤ 4095
        · rw [if_pos hin, if_pos (by omega), show k - a = k - (a + 1) + 1 by omega, List.getD_cons_succ]
        · rw [if_neg hin, if_neg (by omega)]
    · rw [if_neg ha, if_neg (by omega)]

end

/-- Settles O59: the load from 0x200, whose last byte in memory is the image's 3584th. -/
theorem loadPlacesTheImage : Obligations.LoadPlacesTheImage := by
  intro image s hm
  have hread := readByte_loadFrom 0x200 image hm
  obtain ⟨m, hload⟩ := loadFrom_eq 0x200 image s
  refine ⟨fun j hj hceil => ?_, fun a ha => ?_, loadFrom_memoryWf 0x200 image hm, ?_⟩
  · rw [State.load, hread, if_pos (by omega), Nat.add_sub_cancel_left, List.getD_eq_getElem _ _ hj]
  · rw [State.load, hread, if_neg (by omega)]
  · rw [State.load, hload]

end Sys2Proof.Machine
end

section
/-! PROOFS. DRAW (spec/44_display.md R171 to R173): the blitter XORs the sprite's bits into the display, bit by bit, and
reports whether a lit cell met a 1. -/

namespace Sys2Proof.Machine

open Sys2Proof Sys2Proof.Safety

/-- dc is the display d with the cells of the mask p toggled, and whether one of them was lit. -/
def Toggles (d : Display) (p : Nat → Nat → Bool) (dc : Display × Bool) : Prop :=
  (∀ r c, r < 32 → c < 64 → Display.cell dc.1 r c = (Display.cell d r c != p r c)) ∧
  (dc.2 = true ↔ ∃ r c, p r c = true ∧ Display.cell d r c = true)

/-- The mask of the first n bits of a sprite row b at column x0 of row y, clipped at column 63. -/
def rowMask (b : Byte) (x0 y n r c : Nat) : Bool :=
  decide (r = y ∧ x0 ≤ c ∧ c < x0 + n ∧ c ≤ 63) && b.getLsbD (7 - (c - x0))

/-- The mask of the first `rows` rows of the sprite at I. -/
def State.spriteMask (s : State) (x0 y0 rows r c : Nat) : Bool :=
  decide (y0 ≤ r ∧ r < y0 + rows ∧ x0 ≤ c ∧ c ≤ min (x0 + 7) 63) &&
    (s.readByte (s.i.toNat + (r - y0))).getLsbD (7 - (c - x0))

theorem Toggles.congr {d : Display} {p q : Nat → Nat → Bool} {dc : Display × Bool} (h : Toggles d p dc)
    (hpq : ∀ r c, q r c = p r c) : Toggles d q dc := by
  rwa [funext fun r => funext fun c => hpq r c]

/-- Toggling one more cell: the blitter's assignment for a sprite bit that is 1. -/
theorem Toggles.toggle {d : Display} {p q : Nat → Nat → Bool} {dc : Display × Bool} {y x : Nat} (h : Toggles d p dc)
    (hy : y < 32) (hx : x < 64) (hp : p y x = false) (hq : ∀ r c, q r c = (p r c || decide (r = y ∧ c = x))) :
    Toggles d q (if Display.cell dc.1 y x then (Display.setCell dc.1 y x false, true)
      else (Display.setCell dc.1 y x true, dc.2)) := by
  obtain ⟨hcells, hhit⟩ := h
  have hlit : Display.cell dc.1 y x = Display.cell d y x := by rw [hcells y x hy hx, hp, Bool.bne_false]
  have hset : ∀ r c, r < 32 → c < 64 →
      Display.cell (Display.setCell dc.1 y x (!Display.cell d y x)) r c = (Display.cell d r c != q r c) := by
    intro r c hr hc
    rw [Display.cell_setCell, hq]
    by_cases hrc : r = y ∧ c = x
    · obtain ⟨rfl, rfl⟩ := hrc
      simp [hr, hc]
    · rw [if_neg (by tauto), hcells r c hr hc]
      simp [hrc]
  have hmore : (∃ r c, q r c = true ∧ Display.cell d r c = true) ↔ dc.2 = true ∨ Display.cell d y x = true := by
    rw [hhit]
    constructor
    · rintro ⟨r, c, hqrc, hd⟩
      rw [hq, Bool.or_eq_true, decide_eq_true_iff] at hqrc
      rcases hqrc with hprc | ⟨rfl, rfl⟩
      · exact .inl ⟨r, c, hprc, hd⟩
      · exact .inr hd
    · rintro (⟨r, c, hprc, hd⟩ | hd)
      · exact ⟨r, c, by rw [hq, hprc, Bool.true_or], hd⟩
      · exact ⟨y, x, by simp [hq], hd⟩
  rw [hlit]
  cases hd : Display.cell d y x with
  | false =>
    rw [hd] at hset hmore
    exact ⟨hset, by simp [hmore]⟩
  | true =>
    rw [hd] at hset hmore
    exact ⟨hset, by simp [hmore]⟩

/-- One more bit of a row: one more cell, if it is inside the buffer and the bit is 1. -/
theorem rowMask_succ (b : Byte) (x0 y n r c : Nat) :
    rowMask b x0 y (n + 1) r c =
      (rowMask b x0 y n r c || decide (x0 + n ≤ 63 ∧ b.getLsbD (7 - n) = true) && decide (r = y ∧ c = x0 + n)) := by
  unfold rowMask
  by_cases hrc : r = y ∧ c = x0 + n
  · obtain ⟨rfl, rfl⟩ := hrc
    simp
  · have hiff : (r = y ∧ x0 ≤ c ∧ c < x0 + (n + 1) ∧ c ≤ 63) ↔ (r = y ∧ x0 ≤ c ∧ c < x0 + n ∧ c ≤ 63) := by omega
    simp [hiff, hrc]

/-- One more row of the sprite. -/
theorem spriteMask_succ (s : State) (x0 y0 rows r c : Nat) :
    s.spriteMask x0 y0 (rows + 1) r c =
      (s.spriteMask x0 y0 rows r c || rowMask (s.readByte (s.i.toNat + rows)) x0 (y0 + rows) 8 r c) := by
  unfold State.spriteMask rowMask
  by_cases hr : r = y0 + rows
  · subst hr
    have hcol : c < x0 + 8 ↔ c ≤ x0 + 7 := by omega
    simp [hcol]
  · have hrows : (y0 ≤ r ∧ r < y0 + (rows + 1)) ↔ (y0 ≤ r ∧ r < y0 + rows) := by omega
    simp [hr, ← and_assoc, hrows]

section
variable {d : Display} {p : Nat → Nat → Bool} {dc : Display × Bool} {b : Byte} {x0 y n : Nat}

theorem blitBit_toggles (h : Toggles d (fun r c => p r c || rowMask b x0 y n r c) dc) (hp : ∀ c, p y c = false)
    (hy : y < 32) : Toggles d (fun r c => p r c || rowMask b x0 y (n + 1) r c) (blitBit b x0 y dc n) := by
  unfold blitBit
  by_cases hbit : x0 + n ≤ 63 ∧ b.getLsbD (7 - n) = true
  · obtain ⟨hcol, -⟩ := id hbit
    rw [if_pos hbit]
    exact h.toggle hy (by omega) (by simp [hp, rowMask]) fun r c => by simp [rowMask_succ, hbit, Bool.or_assoc]
  · rw [if_neg hbit]
    exact h.congr fun r c => by simp [rowMask_succ, hbit]

theorem foldl_blitBit_toggles (h : Toggles d p dc) (hp : ∀ c, p y c = false) (hy : y < 32) :
    Toggles d (fun r c => p r c || rowMask b x0 y n r c) ((List.range n).foldl (blitBit b x0 y) dc) := by
  induction n with
  | zero =>
    have hnone : ∀ r c, rowMask b x0 y 0 r c = false := fun r c => by
      rw [rowMask, decide_eq_false (by omega), Bool.false_and]
    exact h.congr fun r c => by rw [hnone, Bool.or_false]
  | succ n ih =>
    rw [List.range_succ, List.foldl_append]
    exact blitBit_toggles ih hp hy

theorem blitRow_toggles (h : Toggles d p dc) (hp : ∀ c, p y c = false) (hy : y < 32) :
    Toggles d (fun r c => p r c || rowMask b x0 y 8 r c) (blitRow b x0 y dc) :=
  foldl_blitBit_toggles (n := 8) h hp hy

end

/-- R172: the blitter toggles the sprite's cells. -/
theorem blitRows_toggles (s : State) (x0 : Nat) {y0 rows : Nat} (h : y0 + rows ≤ 32) :
    Toggles s.disp (s.spriteMask x0 y0 rows) (s.blitRows x0 y0 rows) := by
  induction rows with
  | zero =>
    have hnone : ∀ r c, s.spriteMask x0 y0 0 r c = false := fun r c => by
      rw [State.spriteMask, decide_eq_false (by omega), Bool.false_and]
    exact ⟨fun r c _ _ => by rw [hnone, Bool.bne_false]; rfl, by simp [State.blitRows, hnone]⟩
  | succ rows ih =>
    have hbelow : ∀ c, s.spriteMask x0 y0 rows (y0 + rows) c = false := fun c => by
      rw [State.spriteMask, decide_eq_false (by omega), Bool.false_and]
    exact (blitRow_toggles (ih (by omega)) hbelow (by omega)).congr (spriteMask_succ s x0 y0 rows)

/-! DRAW (R172). -/

theorem exec_draw {s : State} {x y : Reg} {n : Nibble}
    (h : s.rowsDrawn y n = 0 ∨ s.i.toNat + s.rowsDrawn y n - 1 ≤ 4095) :
    exec (.draw x y n) s = .next (completed s (.draw x y n)) := by
  have hfit : ¬ FaultsOn s (.draw x y n) := fun ⟨hpos, hpass⟩ => by omega
  exact exec_of_not_faultsOn hfit

/-- The sprite a DRAW of a state draws. -/
def State.drawMask (s : State) (x y : Reg) (n : Nibble) : Nat → Nat → Bool :=
  s.spriteMask (s.originX x) (s.originY y) (s.rowsDrawn y n)

theorem drawMask_eq_true_iff {s : State} {x y : Reg} {n : Nibble} {r c : Nat} :
    s.drawMask x y n r c = true ↔
      (s.originY y ≤ r ∧ r < s.originY y + s.rowsDrawn y n ∧ s.originX x ≤ c ∧ c ≤ min (s.originX x + 7) 63) ∧
        (s.readByte (s.i.toNat + (r - s.originY y))).getLsbD (7 - (c - s.originX x)) = true := by
  rw [State.drawMask, State.spriteMask, Bool.and_eq_true, decide_eq_true_iff]

theorem completed_draw_toggles (s : State) (x y : Reg) (n : Nibble) :
    Toggles s.disp (s.drawMask x y n) (s.blitRows (s.originX x) (s.originY y) (s.rowsDrawn y n)) :=
  blitRows_toggles s _ (by rw [State.rowsDrawn, State.originY]; omega)

theorem cell_completed_draw (s : State) (x y : Reg) (n : Nibble) {r c : Nat} (hr : r < 32) (hc : c < 64) :
    (completed s (.draw x y n)).cell r c = (s.cell r c != s.drawMask x y n r c) := by
  obtain ⟨hcells, -⟩ := completed_draw_toggles s x y n
  exact hcells r c hr hc

theorem getV_vf_completed_draw (s : State) (x y : Reg) (n : Nibble) :
    (completed s (.draw x y n)).getV vf =
      flagByte (s.blitRows (s.originX x) (s.originY y) (s.rowsDrawn y n)).2 :=
  State.getV_setV_self _ vf _

theorem flagByte_eq_one_iff (b : Bool) : flagByte b = 1 ↔ b = true := by cases b <;> simp [flagByte]

/-- VF is 1 iff a lit cell met a 1 of the sprite. -/
theorem getV_vf_completed_draw_eq_one (s : State) (x y : Reg) (n : Nibble) :
    (completed s (.draw x y n)).getV vf = 1 ↔ ∃ r c, s.drawMask x y n r c = true ∧ s.cell r c = true := by
  obtain ⟨-, hhit⟩ := completed_draw_toggles s x y n
  rw [getV_vf_completed_draw, flagByte_eq_one_iff]
  exact hhit

theorem changesOnlyDisplayAndRegs_draw (s : State) (x y : Reg) (n : Nibble) :
    ChangesOnlyDisplayAndRegs [0xF] s (completed s (.draw x y n)) := by
  refine ⟨fun k hk => ?_, rfl, fun _ => rfl, ⟨rfl, rfl⟩, ⟨rfl, rfl⟩, ⟨rfl, rfl, rfl, rfl, rfl, rfl⟩, rfl⟩
  have hne : vf ≠ k := fun h => hk (by simp [← h])
  exact (State.getV_setV _ vf k _).trans (if_neg hne)

/-- Settles O39: the display and VF are those of the blitter, whose mask is the statement's rectangle of sprite bits. -/
theorem drawXorsSprite : Obligations.DrawXorsSprite := by
  rintro x y n s _ _ _ rfl rfl rfl hfit
  refine ⟨_, exec_draw hfit, fun r c hr hc => cell_completed_draw s x y n hr hc, ?_, ?_, rfl,
    changesOnlyDisplayAndRegs_draw s x y n⟩
  · rw [getV_vf_completed_draw]
    exact flagByte_eq _
  · refine (getV_vf_completed_draw_eq_one s x y n).trans (exists_congr fun r => exists_congr fun c => ?_)
    rw [drawMask_eq_true_iff]
    constructor
    · rintro ⟨⟨⟨hlow, hhigh, hleft, hright⟩, hbit⟩, hlit⟩
      exact ⟨hlow, hhigh, hleft, hright, hlit, hbit⟩
    · rintro ⟨hlow, hhigh, hleft, hright, hlit, hbit⟩
      exact ⟨⟨⟨hlow, hhigh, hleft, hright⟩, hbit⟩, hlit⟩

theorem lt_of_cell {d : Display} {r c : Nat} (h : Display.cell d r c = true) : r < 32 ∧ c < 64 := by
  by_contra hout
  rw [Display.cell, dif_neg hout] at h
  cases h

theorem lt_of_drawMask {s : State} {x y : Reg} {n : Nibble} {r c : Nat} (h : s.drawMask x y n r c = true) :
    r < 32 ∧ c < 64 := by
  obtain ⟨⟨-, hrow, -, hcol⟩, -⟩ := drawMask_eq_true_iff.1 h
  have horigin : s.originY y < 32 := Nat.mod_lt _ (by decide)
  rw [State.rowsDrawn] at hrow
  omega

/-- A DRAW leaves its own sprite as it was, where VF is not an origin register: the same DRAW again draws the same cells, with
the same footprint. -/
theorem drawMask_completed_draw {s : State} {x y : Reg} (hx : x ≠ 0xF) (hy : y ≠ 0xF) (n : Nibble) :
    (completed s (.draw x y n)).drawMask x y n = s.drawMask x y n ∧
      (FaultsOn (completed s (.draw x y n)) (.draw x y n) ↔ FaultsOn s (.draw x y n)) := by
  obtain ⟨hregs, hi, -⟩ := changesOnlyDisplayAndRegs_draw s x y n
  have hX : (completed s (.draw x y n)).originX x = s.originX x := by
    rw [State.originX, hregs x (by simpa using hx), State.originX]
  have hY : (completed s (.draw x y n)).originY y = s.originY y := by
    rw [State.originY, hregs y (by simpa using hy), State.originY]
  have hrows : (completed s (.draw x y n)).rowsDrawn y n = s.rowsDrawn y n := by
    rw [State.rowsDrawn, hY, State.rowsDrawn]
  refine ⟨?_, by rw [FaultsOn, hrows, hi, FaultsOn]⟩
  rw [State.drawMask, hX, hY, hrows]
  rfl

/-- Settles O40: the second DRAW has the first one's mask, and XOR with it twice is no change; a cell of the mask is lit between
the two iff it was dark before. -/
theorem drawTwiceRestoresDisplay : Obligations.DrawTwiceRestoresDisplay := by
  intro x y n s t u hx hy hs ht htf hu
  rcases exec_cases ht with ⟨-, rfl⟩ | ⟨hfit, rfl⟩
  · cases htf
  obtain ⟨hmask, hiff⟩ := drawMask_completed_draw (s := s) hx hy n
  obtain rfl := Host.Outcome.next.inj ((exec_of_not_faultsOn (mt hiff.1 hfit)).symm.trans hu)
  have hcell : ∀ {r c}, r < 32 → c < 64 → (completed s (.draw x y n)).cell r c = (s.cell r c != s.drawMask x y n r c) :=
    cell_completed_draw s x y n
  refine ⟨Display.ext_cell fun r c hr hc => ?_, (getV_vf_completed_draw_eq_one _ x y n).trans
    (exists_congr fun r => exists_congr fun c => ?_)⟩
  · refine (cell_completed_draw _ x y n hr hc).trans ?_
    rw [hmask, hcell hr hc, Bool.bne_assoc, bne_self_eq_false, Bool.bne_false]
    rfl
  · rw [hmask]
    constructor
    · rintro ⟨hm, hlit⟩
      obtain ⟨hr, hc⟩ := lt_of_drawMask hm
      refine ⟨hlit, ?_⟩
      simpa [hcell hr hc, hm] using hlit
    · rintro ⟨hlit, hdark⟩
      obtain ⟨hr, hc⟩ := lt_of_cell hlit
      refine ⟨?_, hlit⟩
      simpa [hcell hr hc, hdark] using hlit

end Sys2Proof.Machine
end
